-- ==== Sys2Proof/Word.lean ====
section
/-! DEFINITION. The words of the block (00_scope.md R8, R11): plain bit vectors, bit 0 the least significant.
`add32`, `mul32`, xor, or, and, and the logical right shift of R12 are `+`, `*`, `^^^`, `|||`, `&&&` and `>>>`
of `Word`: bit-vector arithmetic keeps the low 32 bits, which is what R12 says of each. -/

namespace Sys2Proof

/-- A host register, seed, accumulator or generator state word: `XLEN` = 32 bits (R8). -/
abbrev Word := BitVec 32

/-- A canvas byte (10_state.md R44). -/
abbrev Byte := BitVec 8

/-- A UTF-16 code unit, the operand of `KD.ABS` (41_key_derivation.md R116). -/
abbrev CodeUnit := BitVec 16

/-- An entry of PERM: `IDXW` = 20 bits (00_scope.md R8, 10_state.md R43). -/
abbrev PermEntry := BitVec 20

end Sys2Proof
end

