-- ==== Sys2Proof/Syntax.lean ====
section
/-! DEFINITION. The sixteen commands of 30_encoding.md R83, one constructor for each row of the opcode map, and
the names their fields take their values from (R81). -/

namespace Sys2Proof

/-- The generator a command selects with its field `G` (30_encoding.md R81). -/
inductive Gen where
  | g0
  | g1
  deriving DecidableEq, Repr

/-- The channel a command selects with its field `CH`: 0 R, 1 G, 2 B, 3 A (30_encoding.md R81). -/
inductive Channel where
  | r
  | g
  | b
  | a
  deriving DecidableEq, Repr

/-- The three embedding profiles (30_encoding.md R81, 44_channel_codec.md R170). -/
inductive Profile where
  | lsb
  | sentinel
  | fullValue
  deriving DecidableEq, Repr

/-- One command of the block (30_encoding.md R83). The field `prof` is the raw two-bit field `PROF`: its value 3
names no profile, and a command that carries it is ill-formed (R82, R86). Every other field has only legal
values. -/
inductive Instr where
  /-- `NOP` -/
  | nop
  /-- `CLR` -/
  | clr
  /-- `CLRERR` -/
  | clrErr
  /-- `KD.INIT` -/
  | kdInit
  /-- `KD.ABS k` -/
  | kdAbs (k : CodeUnit)
  /-- `KD.FIN` -/
  | kdFin
  /-- `RNG.SEED g` -/
  | rngSeed (g : Gen)
  /-- `RNG.NEXT g` -/
  | rngNext (g : Gen)
  /-- `PG.SHUF` -/
  | pgShuf
  /-- `PG.RD` -/
  | pgRd
  /-- `CC.EMB prof, bit` -/
  | ccEmb (prof : BitVec 2) (bit : Bool)
  /-- `CC.EXT prof` -/
  | ccExt (prof : BitVec 2)
  /-- `PX.EMB ch, prof, bit` -/
  | pxEmb (ch : Channel) (prof : BitVec 2) (bit : Bool)
  /-- `PX.EXT ch, prof` -/
  | pxExt (ch : Channel) (prof : BitVec 2)
  /-- `CV.WR d` -/
  | cvWr (d : Byte)
  /-- `CV.RD` -/
  | cvRd
  deriving DecidableEq, Repr

end Sys2Proof
end

