-- ==== Sys2Proof/WellFormed.lean ====
section
/-! DEFINITION. Which commands exist as command words: on the four commands that use `PROF` the field is not 3
(30_encoding.md R82, R86 clause (c)). -/

namespace Sys2Proof

/-- The field `PROF` names a profile (30_encoding.md R81: 3 is reserved, illegal). -/
def profLegal (prof : BitVec 2) : Bool := prof != 3

/-- The command is one of the legal command words of 30_encoding.md R82. -/
def Instr.wellFormed : Instr → Bool
  | .nop => true
  | .clr => true
  | .clrErr => true
  | .kdInit => true
  | .kdAbs _ => true
  | .kdFin => true
  | .rngSeed _ => true
  | .rngNext _ => true
  | .pgShuf => true
  | .pgRd => true
  | .ccEmb prof _ => profLegal prof
  | .ccExt prof => profLegal prof
  | .pxEmb _ prof _ => profLegal prof
  | .pxExt _ prof => profLegal prof
  | .cvWr _ => true
  | .cvRd => true

end Sys2Proof
end

