-- ==== Sys2Proof/Decode.lean ====
section
/-! DEFINITION. The command word (30_encoding.md): its fields (R80), the decoder (R82, total on all 2^32 words,
rejecting by name), the encoder written from the same table (R83), and the table itself as masks and patterns. -/

namespace Sys2Proof

/-- The fields of a command word (30_encoding.md R80). `z1` and `z0` are the two must-be-zero fields inside
`MOD`. -/
structure Fields where
  /-- bits 31:24 -/
  opc : BitVec 8
  /-- bits 23:22 -/
  z1 : BitVec 2
  /-- bits 21:20 -/
  ch : BitVec 2
  /-- bits 19:18 -/
  z0 : BitVec 2
  /-- bits 17:16; bit 16 is also `G` -/
  prof : BitVec 2
  /-- bits 15:0 -/
  imm : BitVec 16
  deriving DecidableEq, Repr

/-- Why a word is ILLEGAL (30_encoding.md R86). -/
inductive Illegal where
  /-- clause (a): the `OPC` is none of the sixteen values -/
  | unknownOpcode
  /-- clause (b): a non-zero bit outside the row's used fields -/
  | strayBit
  /-- clause (c): `PROF` = 3 where `PROF` is used -/
  | reservedProfile
  deriving DecidableEq, Repr

/-- What a word decodes to (30_encoding.md R82: a command or ILLEGAL). -/
inductive Decoded where
  | cmd (i : Instr)
  | illegal (why : Illegal)
  deriving DecidableEq, Repr

/-- The fields of the word `w` (30_encoding.md R80). -/
def splitWord (w : Word) : Fields where
  opc := w.extractLsb' 24 8
  z1 := w.extractLsb' 22 2
  ch := w.extractLsb' 20 2
  z0 := w.extractLsb' 18 2
  prof := w.extractLsb' 16 2
  imm := w.extractLsb' 0 16

/-- The word with the fields `f` (30_encoding.md R80). -/
def joinWord (f : Fields) : Word := f.opc ++ f.z1 ++ f.ch ++ f.z0 ++ f.prof ++ f.imm

/-- `CH` (30_encoding.md R81). -/
def channelOf (v : BitVec 2) : Channel :=
  if v = 0 then .r else if v = 1 then .g else if v = 2 then .b else .a

/-- The number of a channel: its position in the order R, G, B, A (30_encoding.md R81, 20_memory.md R61). -/
def channelCode : Channel → BitVec 2
  | .r => 0
  | .g => 1
  | .b => 2
  | .a => 3

/-- `PROF`: 0 LSB-parity, 1 Sentinel, 2 Full-value, 3 reserved (30_encoding.md R81). -/
def profileOf (v : BitVec 2) : Option Profile :=
  if v = 0 then some .lsb else if v = 1 then some .sentinel else if v = 2 then some .fullValue else none

/-- The number of a profile (30_encoding.md R81). -/
def profileCode : Profile → BitVec 2
  | .lsb => 0
  | .sentinel => 1
  | .fullValue => 2

/-- The field `prof` of a command on a generator: `G` is its bit 16, and bit 17 must be 0 (30_encoding.md
R80). -/
def genOf (v : BitVec 2) : Option Gen :=
  if v = 0 then some .g0 else if v = 1 then some .g1 else none

/-- The number of a generator (30_encoding.md R81). -/
def genCode : Gen → BitVec 2
  | .g0 => 0
  | .g1 => 1

/-- A payload bit as a field of one bit, `IMM[0]` (30_encoding.md R85). -/
def bitCode (bit : Bool) : BitVec 16 := if bit then 1 else 0

/-- No bit of `MOD` and `IMM` may be set: the rows without used fields (30_encoding.md R83). -/
def Fields.bare (f : Fields) : Bool := f.z1 == 0 && f.ch == 0 && f.z0 == 0 && f.prof == 0 && f.imm == 0

/-- `i` if the row's unused bits are all zero, ILLEGAL if not (30_encoding.md R82). -/
def orStray (ok : Bool) (i : Instr) : Decoded := if ok then .cmd i else .illegal .strayBit

/-- A row that uses `PROF`: its unused bits are zero and `PROF` is not 3 (30_encoding.md R82). -/
def orReserved (ok : Bool) (prof : BitVec 2) (i : Instr) : Decoded :=
  if ok then (if profLegal prof then .cmd i else .illegal .reservedProfile) else .illegal .strayBit

/-- A row that uses `G`: its unused bits, bit 17 among them, are zero (30_encoding.md R80, R82). -/
def withGen (ok : Bool) (g : Option Gen) (i : Gen → Instr) : Decoded :=
  match g with
  | some g => orStray ok (i g)
  | none => .illegal .strayBit

/-- The decoder on fields, one line for each row of 30_encoding.md R83. -/
def decodeFields (f : Fields) : Decoded :=
  match f.opc with
  | 0x00#8 => orStray f.bare .nop
  | 0x01#8 => orStray f.bare .clr
  | 0x02#8 => orStray f.bare .clrErr
  | 0x10#8 => orStray f.bare .kdInit
  | 0x11#8 => orStray (f.z1 == 0 && f.ch == 0 && f.z0 == 0 && f.prof == 0) (.kdAbs f.imm)
  | 0x12#8 => orStray f.bare .kdFin
  | 0x20#8 => withGen (f.z1 == 0 && f.ch == 0 && f.z0 == 0 && f.imm == 0) (genOf f.prof) .rngSeed
  | 0x21#8 => withGen (f.z1 == 0 && f.ch == 0 && f.z0 == 0 && f.imm == 0) (genOf f.prof) .rngNext
  | 0x30#8 => orStray f.bare .pgShuf
  | 0x31#8 => orStray f.bare .pgRd
  | 0x40#8 =>
    orReserved (f.z1 == 0 && f.ch == 0 && f.z0 == 0 && f.imm == bitCode (f.imm.getLsbD 0)) f.prof
      (.ccEmb f.prof (f.imm.getLsbD 0))
  | 0x41#8 => orReserved (f.z1 == 0 && f.ch == 0 && f.z0 == 0 && f.imm == 0) f.prof (.ccExt f.prof)
  | 0x48#8 =>
    orReserved (f.z1 == 0 && f.z0 == 0 && f.imm == bitCode (f.imm.getLsbD 0)) f.prof
      (.pxEmb (channelOf f.ch) f.prof (f.imm.getLsbD 0))
  | 0x49#8 => orReserved (f.z1 == 0 && f.z0 == 0 && f.imm == 0) f.prof (.pxExt (channelOf f.ch) f.prof)
  | 0x50#8 =>
    orStray (f.z1 == 0 && f.ch == 0 && f.z0 == 0 && f.prof == 0 && f.imm.extractLsb' 8 8 == 0)
      (.cvWr (f.imm.extractLsb' 0 8))
  | 0x51#8 => orStray f.bare .cvRd
  | _ => .illegal .unknownOpcode

/-- `decode : word32 -> Command or ILLEGAL` (30_encoding.md R82). It depends on the word alone (R88). -/
def decode (w : Word) : Decoded := decodeFields (splitWord w)

/-- The fields of a command's word (30_encoding.md R83, R85). -/
def encodeFields : Instr → Fields
  | .nop => ⟨0x00, 0, 0, 0, 0, 0⟩
  | .clr => ⟨0x01, 0, 0, 0, 0, 0⟩
  | .clrErr => ⟨0x02, 0, 0, 0, 0, 0⟩
  | .kdInit => ⟨0x10, 0, 0, 0, 0, 0⟩
  | .kdAbs k => ⟨0x11, 0, 0, 0, 0, k⟩
  | .kdFin => ⟨0x12, 0, 0, 0, 0, 0⟩
  | .rngSeed g => ⟨0x20, 0, 0, 0, genCode g, 0⟩
  | .rngNext g => ⟨0x21, 0, 0, 0, genCode g, 0⟩
  | .pgShuf => ⟨0x30, 0, 0, 0, 0, 0⟩
  | .pgRd => ⟨0x31, 0, 0, 0, 0, 0⟩
  | .ccEmb prof bit => ⟨0x40, 0, 0, 0, prof, bitCode bit⟩
  | .ccExt prof => ⟨0x41, 0, 0, 0, prof, 0⟩
  | .pxEmb ch prof bit => ⟨0x48, 0, channelCode ch, 0, prof, bitCode bit⟩
  | .pxExt ch prof => ⟨0x49, 0, channelCode ch, 0, prof, 0⟩
  | .cvWr d => ⟨0x50, 0, 0, 0, 0, d.setWidth 16⟩
  | .cvRd => ⟨0x51, 0, 0, 0, 0, 0⟩

/-- The command word of a command (30_encoding.md R80, R83). -/
def encode (i : Instr) : Word := joinWord (encodeFields i)

/-- One row of the opcode map 30_encoding.md R83, as its mask and pattern. -/
structure OpcodeRow where
  /-- the column "match" -/
  pattern : Word
  /-- the column "mask" -/
  mask : Word
  /-- whether `PROF` is among the used fields -/
  usesProf : Bool
  deriving DecidableEq, Repr

/-- The row of a command (30_encoding.md R83). -/
def opcodeRow : Instr → OpcodeRow
  | .nop => ⟨0x00000000, 0xFFFFFFFF, false⟩
  | .clr => ⟨0x01000000, 0xFFFFFFFF, false⟩
  | .clrErr => ⟨0x02000000, 0xFFFFFFFF, false⟩
  | .kdInit => ⟨0x10000000, 0xFFFFFFFF, false⟩
  | .kdAbs _ => ⟨0x11000000, 0xFFFF0000, false⟩
  | .kdFin => ⟨0x12000000, 0xFFFFFFFF, false⟩
  | .rngSeed _ => ⟨0x20000000, 0xFFFEFFFF, false⟩
  | .rngNext _ => ⟨0x21000000, 0xFFFEFFFF, false⟩
  | .pgShuf => ⟨0x30000000, 0xFFFFFFFF, false⟩
  | .pgRd => ⟨0x31000000, 0xFFFFFFFF, false⟩
  | .ccEmb _ _ => ⟨0x40000000, 0xFFFCFFFE, true⟩
  | .ccExt _ => ⟨0x41000000, 0xFFFCFFFF, true⟩
  | .pxEmb _ _ _ => ⟨0x48000000, 0xFFCCFFFE, true⟩
  | .pxExt _ _ => ⟨0x49000000, 0xFFCCFFFF, true⟩
  | .cvWr _ => ⟨0x50000000, 0xFFFFFF00, false⟩
  | .cvRd => ⟨0x51000000, 0xFFFFFFFF, false⟩

/-- The opcode map of 30_encoding.md R83, its sixteen rows in the table's order. -/
def opcodeTable : List OpcodeRow :=
  [.nop, .clr, .clrErr, .kdInit, .kdAbs 0, .kdFin, .rngSeed .g0, .rngNext .g0, .pgShuf, .pgRd, .ccEmb 0 false,
    .ccExt 0, .pxEmb .r 0 false, .pxExt .r 0, .cvWr 0, .cvRd].map opcodeRow

/-- The word `w` is a word of the row: it has the row's pattern under its mask and, where `PROF` is used, `PROF`
is not 3 (30_encoding.md R82). -/
def OpcodeRow.covers (r : OpcodeRow) (w : Word) : Bool :=
  w &&& r.mask == r.pattern && (!r.usesProf || w.extractLsb' 16 2 != 3)

/-- The instruction the decoder reads from the table word of `nbits` bits whose value is `w`; the bits above
`nbits` are zero. A command is one 32-bit word, written whole, so there is no byte order to lay out (20_memory.md
R63). -/
def decodeTableWord (nbits w : Nat) : Option Instr :=
  match decode (BitVec.ofNat 32 (w % 2 ^ nbits)) with
  | .cmd i => some i
  | .illegal _ => none

end Sys2Proof
end

