-- ==== Sys2Proof/Config.lean ====
section
/-! DEFINITION. What the spec fixes for the block once and for all (00_scope.md R8), the shape of the parameter
record `Params` with what must hold of any parameter set (R10), and the two free values: the contents of the
memories that nothing has written since reset (10_state.md R46). -/

namespace Sys2Proof

/-- Four 32-bit words that belong together: the accumulators, the seeds, the constants (00_scope.md R14).
`x1` is number 1 of the accumulators and number 0 of the seeds. -/
structure Quad where
  x1 : Word
  x2 : Word
  x3 : Word
  x4 : Word
  deriving DecidableEq, Repr

/-- The open parameters of the block (00_scope.md R8): the source fixes their role and not their values. -/
structure Params where
  /-- `KD_INIT[1..4]`: the initial accumulators. -/
  kdInit : Quad
  /-- `KD_MUL[1..4]`: the multipliers `constant_i`. -/
  kdMul : Quad
  /-- `KD_FINALIZE`: from the four accumulators to the four seeds. -/
  kdFinalize : Quad → Quad
  /-- `RNG_INC`: added to the state word at each draw. -/
  rngInc : Word
  /-- `RNG_OUT`: from the incremented state word to the draw. -/
  rngOut : Word → Word

/-- 00_scope.md R10: the initial values are pairwise distinct and the increment is odd. That `RNG_OUT` and
`KD_FINALIZE` are pure and total is in their types. -/
def Params.Legal (P : Params) : Prop :=
  P.kdInit.x1 ≠ P.kdInit.x2 ∧ P.kdInit.x1 ≠ P.kdInit.x3 ∧ P.kdInit.x1 ≠ P.kdInit.x4 ∧
  P.kdInit.x2 ≠ P.kdInit.x3 ∧ P.kdInit.x2 ≠ P.kdInit.x4 ∧ P.kdInit.x3 ≠ P.kdInit.x4 ∧
  P.rngInc.toNat % 2 = 1

namespace Config

/-- `NMAX` = 2^20: the largest `n` of `PG.SHUF`, the entries of PERM, the pixels of CANVAS (R8). -/
abbrev nmax : Nat := 0x100000

/-- `CANVAS_BYTES` = 4 x `NMAX` (R8, 10_state.md R44). -/
abbrev canvasBytes : Nat := 0x400000

/-- `BLOCK_ID`, the value of the register ID (R8, 10_state.md R24). -/
abbrev blockId : Word := 0x534B5031

/-- FREE VALUE. The byte CANVAS holds at an address nothing has written since hardware reset number `epoch`:
unspecified, one definite value that stays until written (10_state.md R46, D27 of 92_eei_decisions.md; log 3).
It has no body, so nothing can be proved of its value. -/
opaque canvas0 (epoch addr : Nat) : Byte

/-- FREE VALUE. The entry PERM holds at an index nothing has written since hardware reset number `epoch`
(10_state.md R43, R46; U11 of 93_implementation_defined.md; log 4). No run from reset reads one. -/
opaque perm0 (epoch index : Nat) : PermEntry

end Config

end Sys2Proof
end

