-- ==== Sys2Proof/Machine/State.lean ====
section
/-! DEFINITION. The state of the block as plain data (10_state.md), the host's accesses, the reasons a step can
stop, and the state after reset (10_state.md R46, 70_reset_and_hazards.md R280). -/

namespace Sys2Proof.Machine

/-- The twenty registers of 10_state.md R21, in the order of their offsets. -/
inductive Reg where
  | id
  | cmd
  | status
  | err
  | errcmd
  | arg0
  | arg1
  | res
  | npix
  | klen
  | h1
  | h2
  | h3
  | h4
  | seed0
  | seed1
  | seed2
  | seed3
  | a0
  | a1
  deriving DecidableEq, Repr

/-- The seven errors of 60_exceptions.md R250. -/
inductive ErrCode where
  /-- the word written to CMD decodes to ILLEGAL -/
  | illcmd
  /-- no key derivation is open -/
  | kdseq
  /-- the generator was never seeded -/
  | norng
  /-- more pixels than the block holds -/
  | range
  /-- no valid permutation -/
  | noperm
  /-- position outside the permutation -/
  | index
  /-- byte address outside the canvas -/
  | addr
  deriving DecidableEq, Repr

/-- The width of a host access; only 32-bit accesses have a meaning (20_memory.md R65). -/
inductive Size where
  | byte
  | half
  | word
  deriving DecidableEq, Repr

/-- One input from outside the block: a host access (00_scope.md R17) at a byte offset 0x00 to 0xFF of REG
(10_state.md R21), or a pulse of the hardware reset input (70_reset_and_hazards.md R280; log 7). -/
inductive Input where
  | read (size : Size) (off : BitVec 8)
  | write (size : Size) (off : BitVec 8) (v : Word)
  | hwReset
  deriving DecidableEq, Repr

/-- The written bytes of CANVAS, address and byte, addresses rising. An address that is not listed holds no byte of
the memory's own (log 3). -/
abbrev Memory := List Host.Cell

/-- The form of a memory: addresses strictly rising, each inside CANVAS (10_state.md R44). Two memories of this
form that agree at every address are the same list. -/
abbrev Memory.wf (m : Memory) : Prop :=
  m.Pairwise (fun x y => x.1 < y.1) ∧ ∀ c ∈ m, c.1 < Config.canvasBytes

/-- The whole state of the block (10_state.md R20) and, last, the model's own fields `epoch`, `inputs`, `reply`.
ID, CMD and STATUS have no storage (R24, R25, R26): see `readReg`. -/
@[ext]
structure State where
  /-- ERR (R27) -/
  err : Word
  /-- ERRCMD (R28) -/
  errcmd : Word
  /-- ARG0 (R29) -/
  arg0 : Word
  /-- ARG1 (R30) -/
  arg1 : Word
  /-- RES (R31) -/
  res : Word
  /-- NPIX (R32) -/
  npix : Word
  /-- KLEN (R33) -/
  klen : Word
  /-- H1 to H4 (R34) -/
  h : Quad
  /-- SEED0 to SEED3 (R35) -/
  seed : Quad
  /-- A0 (R36) -/
  a0 : Word
  /-- A1 (R36) -/
  a1 : Word
  /-- KDA: a key derivation is open (R37) -/
  kda : Bool
  /-- SEEDV: the seeds are valid (R38) -/
  seedv : Bool
  /-- RV0: generator 0 is seeded (R39) -/
  rv0 : Bool
  /-- RV1: generator 1 is seeded (R39) -/
  rv1 : Bool
  /-- PV: PERM holds a permutation (R40) -/
  pv : Bool
  /-- PERM (R43): the entries written since reset, which are those from index 0 up to the list's length -/
  perm : List PermEntry
  /-- CANVAS (R44): the bytes written since reset -/
  canvas : Memory
  /-- the model's own: how many hardware resets the run has seen, the argument of the free values (log 7) -/
  epoch : Nat
  /-- the model's own: the inputs still to come, the oldest first (log 1) -/
  inputs : List Input
  /-- the model's own: the value the last access returned, none if it returned no value (log 1) -/
  reply : Option Word
  deriving DecidableEq, Repr

/-- Why a step faults. The block has no fault: an error is recorded in ERR and the machine goes on
(60_exceptions.md R255), and no state is stuck (93_implementation_defined.md, end of Part 1). So no step of the
model answers with a fault, and the type has no constructor. -/
inductive Fault where
  deriving DecidableEq, Repr

/-- Why the model gives a step no meaning. -/
inductive Refusal where
  /-- Raised by an arm of `exec` whose instruction has no meaning yet; no arm is one. Safe: the model stops. -/
  | notModelled (mnemonic : String)
  /-- Raised by a host access that is not an aligned 32-bit access: it "is outside the interface" and "a model gives
  it no meaning (refuses it)" (20_memory.md R65; log 6). Safe: the model stops. -/
  | notAlignedWord
  deriving DecidableEq, Repr

/-- The machine right after hardware reset (10_state.md R46, 70_reset_and_hazards.md R280): every register and
flag 0, PERM and CANVAS with nothing written. -/
def State.reset : State where
  err := 0
  errcmd := 0
  arg0 := 0
  arg1 := 0
  res := 0
  npix := 0
  klen := 0
  h := ⟨0, 0, 0, 0⟩
  seed := ⟨0, 0, 0, 0⟩
  a0 := 0
  a1 := 0
  kda := false
  seedv := false
  rv0 := false
  rv1 := false
  pv := false
  perm := []
  canvas := []
  epoch := 0
  inputs := []
  reply := none

end Sys2Proof.Machine
end

