-- ==== Sys2Proof/Machine/Ops.lean ====
section
/-! DEFINITION. The operations the meanings share: error entry and return (60_exceptions.md R255, R258), the
execution of one command (40_system.md R103), the result register, the generators' registers, CANVAS, PERM, and
the arithmetic of the shuffle's index. -/

namespace Sys2Proof.Machine

/-! ### Errors -/

/-- The code of an error (60_exceptions.md R250), as ERR holds it: zero-extended to 32 bits. -/
def errCode : ErrCode → Word
  | .illcmd => 1
  | .kdseq => 2
  | .norng => 3
  | .range => 4
  | .noperm => 5
  | .index => 6
  | .addr => 7

/-- Error entry, `raise Err(code)` for the command word `w`: ERR and ERRCMD, and nothing else (60_exceptions.md
R255). -/
def raiseErr (code : ErrCode) (w : Word) (s : State) : State :=
  { s with err := errCode code, errcmd := w }

/-- The return from the error condition: ERR and ERRCMD to 0, all other state kept (60_exceptions.md R258). -/
def clearErr (s : State) : State := { s with err := 0, errcmd := 0 }

/-- The execution of the command whose word is `w` (40_system.md R103, steps 2 to 5): in error-stop it is ignored
(60_exceptions.md R256); else the first check that fails raises its error; else the command's writes are done. -/
def runCommand (w : Word) (check : State → Option ErrCode) (effect : State → State) (s : State) :
    Host.Outcome State Fault Refusal :=
  if s.err = 0 then
    match check s with
    | none => .next (effect s)
    | some code => .next (raiseErr code w s)
  else .next s

/-- The execution of a word that is no legal command: `ILLCMD`, or nothing in error-stop (30_encoding.md R86,
60_exceptions.md R251, R256). -/
def illegalCommand (w : Word) (s : State) : Host.Outcome State Fault Refusal :=
  runCommand w (fun _ => some .illcmd) id s

/-- A command of which every check passes (60_exceptions.md R250, last sentence). -/
def noCheck (_ : State) : Option ErrCode := none

/-! ### Registers -/

/-- RES is overwritten whole (10_state.md R31). -/
def setRes (v : Word) (s : State) : State := { s with res := v }

/-- `A[g]` (00_scope.md R14). -/
def genState (g : Gen) (s : State) : Word :=
  match g with
  | .g0 => s.a0
  | .g1 => s.a1

/-- `RV[g]` (00_scope.md R14). -/
def genSeeded (g : Gen) (s : State) : Bool :=
  match g with
  | .g0 => s.rv0
  | .g1 => s.rv1

/-- Write `A[g]`. -/
def setGenState (g : Gen) (v : Word) (s : State) : State :=
  match g with
  | .g0 => { s with a0 := v }
  | .g1 => { s with a1 := v }

/-- Set `RV[g]` to 1. -/
def markSeeded (g : Gen) (s : State) : State :=
  match g with
  | .g0 => { s with rv0 := true }
  | .g1 => { s with rv1 := true }

/-! ### CANVAS -/

/-- The byte written at address `a`, if one has been. -/
def lookupCell (a : Nat) : Memory → Option Byte
  | [] => none
  | (c, v) :: m => if c = a then some v else lookupCell a m

/-- The memory with the byte `b` at address `a`. -/
def storeCell (a : Nat) (b : Byte) : Memory → Memory
  | [] => [(a, b)]
  | (c, v) :: m =>
    if a < c then (a, b) :: (c, v) :: m
    else if a = c then (a, b) :: m
    else (c, v) :: storeCell a b m

/-- `MemRead(a, 1)` (00_scope.md R13): the byte written at `a`, or the free value where none has been (10_state.md
R46; log 3). -/
def memRead (s : State) (a : Nat) : Byte := (lookupCell a s.canvas).getD (Config.canvas0 s.epoch a)

/-- `MemWrite(a, 1, b)` (00_scope.md R13). -/
def memWrite (a : Nat) (b : Byte) (s : State) : State := { s with canvas := storeCell a b s.canvas }

/-- The address of channel `ch` of pixel `p`: `4*p + ch` (20_memory.md R61). -/
def pixelAddr (p : Nat) (ch : Channel) : Nat := 4 * p + (channelCode ch).toNat

/-! ### PERM -/

/-- `PERM[i]` (00_scope.md R13): the entry written at `i`, or the free value where none has been (10_state.md R43;
log 4). -/
def permRead (s : State) (i : Nat) : PermEntry := s.perm[i]?.getD (Config.perm0 s.epoch i)

/-- `PERM[q] <- P[q]` for every index `q` of `p`; the entries at and above its length keep their values (43_permutation.md
R152, U11 of 93_implementation_defined.md; log 11). -/
def permWrite (p : List Nat) (s : State) : State :=
  { s with perm := p.map (BitVec.ofNat 20) ++ s.perm.drop p.length }

/-! ### Arithmetic -/

/-- `mulhi(u, m) = floor((u x m) / 2^32)`, of the exact product (00_scope.md R12). -/
def mulhi (u : Word) (m : Nat) : Nat := u.toNat * m / 2 ^ 32

/-- `swap(P[i], P[j])` (00_scope.md R13). -/
def swapAt (i j : Nat) (p : List Nat) : List Nat :=
  match p[i]?, p[j]? with
  | some x, some y => (p.set i y).set j x
  | _, _ => p

end Sys2Proof.Machine
end

