-- ==== Sys2Proof/Machine/Operands.lean ====
section
/-! DEFINITION. The operands the commands take from the registers (30_encoding.md R85) and the checks on them and
on the flags, each with the error it raises (60_exceptions.md R250, R252, R254). The operands in the command word
are taken out by the decoder. -/

namespace Sys2Proof.Machine

/-! ### Operands -/

/-- The carrier byte `b` = ARG0[7:0]; ARG0[31:8] is ignored (30_encoding.md R85). -/
def carrierByte (s : State) : Byte := s.arg0.extractLsb' 0 8

/-- ARG0 as an unsigned number, all 32 bits: `n`, the position `i`, the byte address `a` (30_encoding.md R85). -/
def arg0Nat (s : State) : Nat := s.arg0.toNat

/-- The character code as a 32-bit word: zero-extended (30_encoding.md R85, 41_key_derivation.md R116). -/
def codeWord (k : CodeUnit) : Word := k.setWidth 32

/-- The address `a = 4*PERM[ARG0] + ch` of a `PX.*` command (20_memory.md R62, 45_canvas.md R191). -/
def selectedAddr (ch : Channel) (s : State) : Nat := pixelAddr (permRead s (arg0Nat s)).toNat ch

/-! ### Checks -/

/-- `KDA = 1`, else `KDSEQ` (41_key_derivation.md R113, R114). -/
def checkOpen (s : State) : Option ErrCode := if s.kda then none else some .kdseq

/-- `RV[g] = 1`, else `NORNG` (42_rng.md R133). -/
def checkSeeded (g : Gen) (s : State) : Option ErrCode := if genSeeded g s then none else some .norng

/-- `n <= NMAX`, all 32 bits of ARG0, else `RANGE` (43_permutation.md R152). -/
def checkFits (s : State) : Option ErrCode := if arg0Nat s ≤ Config.nmax then none else some .range

/-- `PV = 1`, else `NOPERM`; then `i < NPIX`, all 32 bits of ARG0, else `INDEX` (43_permutation.md R153, 45_canvas.md
R192, R193; the order is 60_exceptions.md R257). -/
def checkPosition (s : State) : Option ErrCode :=
  if s.pv then (if arg0Nat s < s.npix.toNat then none else some .index) else some .noperm

/-- `a < 4*NMAX`, all 32 bits of ARG0, else `ADDR` (45_canvas.md R194, R195). -/
def checkAddr (s : State) : Option ErrCode := if arg0Nat s < Config.canvasBytes then none else some .addr

end Sys2Proof.Machine
end

