-- ==== Sys2Proof/Machine/ChannelCodec.lean ====
section
/-! DEFINITION. The channel codec: CC.EMB, CC.EXT (44_channel_codec.md). A command whose field `PROF` is 3 is
ill-formed; the decoder never gives one, and its execution is that of an illegal word (R174, R175; log 10). -/

namespace Sys2Proof.Machine

/-- `embedBit(prof, b, bit)` (44_channel_codec.md R171). -/
def embedBit (p : Profile) (b : Byte) (bit : Bool) : Byte :=
  match p with
  | .lsb => (b &&& 0xFE) ||| (if bit then 1 else 0)
  | .sentinel => if bit then 255 else 254
  | .fullValue => if bit then 255 else 0

/-- `extractBit(prof, b)` (44_channel_codec.md R172). -/
def extractBit (p : Profile) (b : Byte) : Bool :=
  match p with
  | .lsb => b.getLsbD 0
  | .sentinel => b == 255
  | .fullValue => b == 255

/-- A byte as a result: zero-extended (10_state.md R31). -/
def byteResult (b : Byte) : Word := b.setWidth 32

/-- A bit as a result: zero-extended (10_state.md R31). -/
def bitResult (bit : Bool) : Word := if bit then 1 else 0

/-- The write of `CC.EMB` under a profile (44_channel_codec.md R174). -/
def ccEmbed (p : Profile) (bit : Bool) (s : State) : State :=
  setRes (byteResult (embedBit p (carrierByte s) bit)) s

/-- The write of `CC.EXT` under a profile (44_channel_codec.md R175). -/
def ccExtract (p : Profile) (s : State) : State :=
  setRes (bitResult (extractBit p (carrierByte s))) s

/-- `CC.EMB prof, bit` (44_channel_codec.md R174). -/
def execCcEmb (prof : BitVec 2) (bit : Bool) (s : State) : Host.Outcome State Fault Refusal :=
  match profileOf prof with
  | some p => runCommand (encode (.ccEmb prof bit)) noCheck (ccEmbed p bit) s
  | none => illegalCommand (encode (.ccEmb prof bit)) s

/-- `CC.EXT prof` (44_channel_codec.md R175). -/
def execCcExt (prof : BitVec 2) (s : State) : Host.Outcome State Fault Refusal :=
  match profileOf prof with
  | some p => runCommand (encode (.ccExt prof)) noCheck (ccExtract p) s
  | none => illegalCommand (encode (.ccExt prof)) s

end Sys2Proof.Machine
end

