-- ==== Sys2Proof/Machine/Canvas.lean ====
section
/-! DEFINITION. The canvas commands: PX.EMB, PX.EXT, CV.WR, CV.RD (45_canvas.md). -/

namespace Sys2Proof.Machine

/-- The writes of `PX.EMB` under a profile (45_canvas.md R192). Under Sentinel and Full-value `embedBit` does not
use the old byte. -/
def pxEmbed (ch : Channel) (p : Profile) (bit : Bool) (s : State) : State :=
  let a := selectedAddr ch s
  let new := embedBit p (memRead s a) bit
  setRes (byteResult new) (memWrite a new s)

/-- The write of `PX.EXT` under a profile (45_canvas.md R193). -/
def pxExtract (ch : Channel) (p : Profile) (s : State) : State :=
  setRes (bitResult (extractBit p (memRead s (selectedAddr ch s)))) s

/-- The write of `CV.WR d` (45_canvas.md R194). -/
def canvasPoke (d : Byte) (s : State) : State := memWrite (arg0Nat s) d s

/-- The write of `CV.RD` (45_canvas.md R195). -/
def canvasPeek (s : State) : State := setRes (byteResult (memRead s (arg0Nat s))) s

/-- `PX.EMB ch, prof, bit` (45_canvas.md R192); `PROF` = 3 is an illegal word (log 10). -/
def execPxEmb (ch : Channel) (prof : BitVec 2) (bit : Bool) (s : State) : Host.Outcome State Fault Refusal :=
  match profileOf prof with
  | some p => runCommand (encode (.pxEmb ch prof bit)) checkPosition (pxEmbed ch p bit) s
  | none => illegalCommand (encode (.pxEmb ch prof bit)) s

/-- `PX.EXT ch, prof` (45_canvas.md R193); `PROF` = 3 is an illegal word (log 10). -/
def execPxExt (ch : Channel) (prof : BitVec 2) (s : State) : Host.Outcome State Fault Refusal :=
  match profileOf prof with
  | some p => runCommand (encode (.pxExt ch prof)) checkPosition (pxExtract ch p) s
  | none => illegalCommand (encode (.pxExt ch prof)) s

/-- `CV.WR d` (45_canvas.md R194). -/
def execCvWr (d : Byte) (s : State) : Host.Outcome State Fault Refusal :=
  runCommand (encode (.cvWr d)) checkAddr (canvasPoke d) s

/-- `CV.RD` (45_canvas.md R195). -/
def execCvRd (s : State) : Host.Outcome State Fault Refusal :=
  runCommand (encode .cvRd) checkAddr canvasPeek s

end Sys2Proof.Machine
end

