-- ==== Sys2Proof/Machine/Params.lean ====
section
/-! DEFINITION. The parameter set the machine runs with: the spec's default set P0 (00_scope.md R9), which the
spec supplies from general knowledge (G1, G2 of 93_implementation_defined.md), with the finalisation of
41_key_derivation.md R114 (log 5). -/

namespace Sys2Proof.Machine

/-- `KD_INIT[1..4]` of P0 (00_scope.md R9). -/
def kdInitP0 : Quad := ⟨0x6A09E667, 0xBB67AE85, 0x3C6EF372, 0xA54FF53A⟩

/-- `KD_MUL[1..4]` of P0 (00_scope.md R9). -/
def kdMulP0 : Quad := ⟨0x239B961B, 0xAB0E9789, 0x38B34AE5, 0xA1E38B93⟩

/-- `KD_FINALIZE`: the identity, SEED[s] is made from H[s+1] (41_key_derivation.md R114, D9). -/
def kdFinalizeP0 (h : Quad) : Quad := h

/-- `RNG_INC` of P0 (00_scope.md R9). -/
def rngIncP0 : Word := 0x6D2B79F5

/-- `RNG_OUT` of P0: two mixing rounds and a final xorshift (42_rng.md R134). -/
def rngOutP0 (t0 : Word) : Word :=
  let t1 := (t0 ^^^ (t0 >>> 15)) * (t0 ||| 1)
  let t2 := t1 ^^^ (t1 + (t1 ^^^ (t1 >>> 7)) * (t1 ||| 61))
  t2 ^^^ (t2 >>> 14)

/-- The default parameter set P0 (00_scope.md R8, R9). -/
def paramsP0 : Params where
  kdInit := kdInitP0
  kdMul := kdMulP0
  kdFinalize := kdFinalizeP0
  rngInc := rngIncP0
  rngOut := rngOutP0

/-- The parameter set of the modelled block (log 5): `exec` and `step` are `execFor` and `stepFor` of this set, and the
laws under Sys2Proof/Laws/ are stated for every set. -/
def params : Params := paramsP0

end Sys2Proof.Machine
end

