-- ==== Sys2Proof/Machine/KeyDerivation.lean ====
section
/-! DEFINITION. Key derivation: KD.INIT, KD.ABS, KD.FIN (41_key_derivation.md). Each command is defined for every
parameter set (00_scope.md R8); its meaning in the modelled block is that of the block's set `params`. -/

namespace Sys2Proof.Machine

/-- The round function (41_key_derivation.md R111): the four updates one after another, so that the fourth takes the
new first accumulator. -/
def kdRound (P : Params) (h : Quad) (k : CodeUnit) : Quad :=
  let h1' := h.x2 ^^^ ((h.x1 ^^^ codeWord k) * P.kdMul.x1)
  let h2' := h.x3 ^^^ ((h.x2 ^^^ codeWord k) * P.kdMul.x2)
  let h3' := h.x4 ^^^ ((h.x3 ^^^ codeWord k) * P.kdMul.x3)
  let h4' := h1' ^^^ ((h.x4 ^^^ codeWord k) * P.kdMul.x4)
  ⟨h1', h2', h3', h4'⟩

/-- The writes of `KD.INIT` (41_key_derivation.md R112). -/
def kdOpen (P : Params) (s : State) : State :=
  { s with h := P.kdInit, klen := 0, kda := true, seedv := false }

/-- The writes of `KD.ABS k` (41_key_derivation.md R113). -/
def kdAbsorb (P : Params) (k : CodeUnit) (s : State) : State :=
  { s with h := kdRound P s.h k, klen := s.klen + 1 }

/-- The writes of `KD.FIN` (41_key_derivation.md R114). -/
def kdClose (P : Params) (s : State) : State :=
  { s with seed := P.kdFinalize s.h, seedv := true, kda := false }

/-- `KD.INIT` (41_key_derivation.md R112), for every parameter set. -/
def execKdInitFor (P : Params) (s : State) : Host.Outcome State Fault Refusal :=
  runCommand (encode .kdInit) noCheck (kdOpen P) s

/-- `KD.INIT` in the modelled block. -/
def execKdInit (s : State) : Host.Outcome State Fault Refusal := execKdInitFor params s

/-- `KD.ABS k` (41_key_derivation.md R113), for every parameter set. -/
def execKdAbsFor (P : Params) (k : CodeUnit) (s : State) : Host.Outcome State Fault Refusal :=
  runCommand (encode (.kdAbs k)) checkOpen (kdAbsorb P k) s

/-- `KD.ABS k` in the modelled block. -/
def execKdAbs (k : CodeUnit) (s : State) : Host.Outcome State Fault Refusal := execKdAbsFor params k s

/-- `KD.FIN` (41_key_derivation.md R114), for every parameter set. -/
def execKdFinFor (P : Params) (s : State) : Host.Outcome State Fault Refusal :=
  runCommand (encode .kdFin) checkOpen (kdClose P) s

/-- `KD.FIN` in the modelled block. -/
def execKdFin (s : State) : Host.Outcome State Fault Refusal := execKdFinFor params s

end Sys2Proof.Machine
end

