-- ==== Sys2Proof/Machine/Rng.lean ====
section
/-! DEFINITION. The two generators: RNG.SEED, RNG.NEXT (42_rng.md). The draw takes the increment and the output function
from a parameter set (R135); the modelled block's set is `params`. -/

namespace Sys2Proof.Machine

/-- One draw: the new state word and the draw `U` (42_rng.md R131). -/
def rngStep (P : Params) (a : Word) : Word × Word :=
  (a + P.rngInc, P.rngOut (a + P.rngInc))

/-- The writes of `RNG.SEED g` (42_rng.md R132). -/
def seedGen (g : Gen) (s : State) : State := markSeeded g (setGenState g s.arg0 s)

/-- The writes of `RNG.NEXT g` (42_rng.md R133). -/
def drawGen (P : Params) (g : Gen) (s : State) : State :=
  setRes (rngStep P (genState g s)).2 (setGenState g (rngStep P (genState g s)).1 s)

/-- `RNG.SEED g` (42_rng.md R132). -/
def execRngSeed (g : Gen) (s : State) : Host.Outcome State Fault Refusal :=
  runCommand (encode (.rngSeed g)) noCheck (seedGen g) s

/-- `RNG.NEXT g` (42_rng.md R133), for every parameter set. -/
def execRngNextFor (P : Params) (g : Gen) (s : State) : Host.Outcome State Fault Refusal :=
  runCommand (encode (.rngNext g)) (checkSeeded g) (drawGen P g) s

/-- `RNG.NEXT g` in the modelled block. -/
def execRngNext (g : Gen) (s : State) : Host.Outcome State Fault Refusal := execRngNextFor params g s

end Sys2Proof.Machine
end

