-- ==== Sys2Proof/Machine/Permutation.lean ====
section
/-! DEFINITION. The permutation generator: PG.SHUF, PG.RD (43_permutation.md). The shuffle is defined for every parameter
set (R158, R159); the modelled block's set is `params`. -/

namespace Sys2Proof.Machine

/-- The iterations `i` down to 1 of the shuffle, from the state word `a` and the array `p`: one draw each, `j =
mulhi(U, i+1)`, swap of positions `i` and `j` (43_permutation.md R151, R154; the order is 20_memory.md R77). -/
def fyLoop (P : Params) : (i : Nat) → (a : Word) → (p : List Nat) → List Nat × Word
  | 0, a, p => (p, a)
  | i + 1, a, p =>
    fyLoop P i (rngStep P a).1 (swapAt (i + 1) (mulhi (rngStep P a).2 (i + 2)) p)

/-- The shuffle `fy(n, seed)`: from the identity sequence, the iterations `n-1` down to 1; the permutation and the
last state word (43_permutation.md R151). -/
def fy (P : Params) (n : Nat) (seed : Word) : List Nat × Word := fyLoop P (n - 1) seed (List.range n)

/-- The writes of `PG.SHUF` (43_permutation.md R152). -/
def shuffle (P : Params) (s : State) : State :=
  { permWrite (fy P (arg0Nat s) s.arg1).1 s with
    npix := s.arg0, a0 := (fy P (arg0Nat s) s.arg1).2, rv0 := true, pv := true }

/-- The write of `PG.RD` (43_permutation.md R153). -/
def readPerm (s : State) : State := setRes ((permRead s (arg0Nat s)).setWidth 32) s

/-- `PG.SHUF` (43_permutation.md R152), for every parameter set. -/
def execPgShufFor (P : Params) (s : State) : Host.Outcome State Fault Refusal :=
  runCommand (encode .pgShuf) checkFits (shuffle P) s

/-- `PG.SHUF` in the modelled block. -/
def execPgShuf (s : State) : Host.Outcome State Fault Refusal := execPgShufFor params s

/-- `PG.RD` (43_permutation.md R153). -/
def execPgRd (s : State) : Host.Outcome State Fault Refusal :=
  runCommand (encode .pgRd) checkPosition readPerm s

end Sys2Proof.Machine
end

