-- ==== Sys2Proof/Machine/System.lean ====
section
/-! DEFINITION. The system commands NOP, CLR, CLRERR (40_system.md). All three are executed in error-stop too
(R103 step 2). -/

namespace Sys2Proof.Machine

/-- `NOP`: nothing (40_system.md R100). -/
def execNop (s : State) : Host.Outcome State Fault Refusal := .next s

/-- The writes of `CLR` (40_system.md R101): every register and flag to its reset value; CANVAS unchanged, PERM not
written. -/
def softReset (s : State) : State :=
  { s with
    err := 0, errcmd := 0, arg0 := 0, arg1 := 0, res := 0, npix := 0, klen := 0
    h := ⟨0, 0, 0, 0⟩
    seed := ⟨0, 0, 0, 0⟩
    a0 := 0, a1 := 0
    kda := false, seedv := false, rv0 := false, rv1 := false, pv := false }

/-- `CLR` (40_system.md R101). -/
def execClr (s : State) : Host.Outcome State Fault Refusal := .next (softReset s)

/-- `CLRERR` (40_system.md R102): the return from the error condition. -/
def execClrErr (s : State) : Host.Outcome State Fault Refusal := .next (clearErr s)

end Sys2Proof.Machine
end

