-- ==== Sys2Proof/Machine/Dispatch.lean ====
section
/-! DEFINITION. The dispatch: one arm per command of 30_encoding.md R83. -/

namespace Sys2Proof.Machine

/-- The effect of one command written to CMD (40_system.md R103). -/
def exec (i : Instr) (s : State) : Host.Outcome State Fault Refusal :=
  match i with
  | .nop => Sys2Proof.Machine.execNop s
  | .clr => Sys2Proof.Machine.execClr s
  | .clrErr => Sys2Proof.Machine.execClrErr s
  | .kdInit => Sys2Proof.Machine.execKdInit s
  | .kdAbs k => Sys2Proof.Machine.execKdAbs k s
  | .kdFin => Sys2Proof.Machine.execKdFin s
  | .rngSeed g => Sys2Proof.Machine.execRngSeed g s
  | .rngNext g => Sys2Proof.Machine.execRngNext g s
  | .pgShuf => Sys2Proof.Machine.execPgShuf s
  | .pgRd => Sys2Proof.Machine.execPgRd s
  | .ccEmb prof bit => Sys2Proof.Machine.execCcEmb prof bit s
  | .ccExt prof => Sys2Proof.Machine.execCcExt prof s
  | .pxEmb ch prof bit => Sys2Proof.Machine.execPxEmb ch prof bit s
  | .pxExt ch prof => Sys2Proof.Machine.execPxExt ch prof s
  | .cvWr d => Sys2Proof.Machine.execCvWr d s
  | .cvRd => Sys2Proof.Machine.execCvRd s

end Sys2Proof.Machine
end

