-- ==== Sys2Proof/Machine/Flags.lean ====
section
/-! DEFINITION. STATUS, assembled from the flags at the time of the read (10_state.md R26), and ERRF, which is not
stored (R41). The flags themselves are fields of State; each command's rule says which it writes. -/

namespace Sys2Proof.Machine

/-- ERRF is 1 exactly when ERR != 0 (10_state.md R41). -/
def errF (s : State) : Bool := s.err != 0

/-- A flag as a word with that flag at bit 0. -/
def flagWord (b : Bool) : Word := if b then 1 else 0

/-- STATUS (10_state.md R26): bit 0 ERRF, 1 KDA, 2 SEEDV, 3 RV0, 4 RV1, 5 PV, the rest 0. -/
def status (s : State) : Word :=
  flagWord (errF s) ||| (flagWord s.kda <<< 1) ||| (flagWord s.seedv <<< 2) |||
    (flagWord s.rv0 <<< 3) ||| (flagWord s.rv1 <<< 4) ||| (flagWord s.pv <<< 5)

end Sys2Proof.Machine
end

