-- ==== Sys2Proof/Machine/HostPort.lean ====
section
/-! DEFINITION. The host's side of the block: the register map (10_state.md R21), reads and writes of registers
(R22, R23), the command register (R25, 40_system.md R103), the hardware reset input (70_reset_and_hazards.md R280),
and one input taken whole (20_memory.md R66). What commands do is an argument, `Execution`, so that the host's side
stands once for the modelled block and for the block with any parameter set (00_scope.md R17). -/

namespace Sys2Proof.Machine

/-- The offset of a register in REG (10_state.md R21). -/
def regOffset : Reg → BitVec 8
  | .id => 0x00
  | .cmd => 0x04
  | .status => 0x08
  | .err => 0x0C
  | .errcmd => 0x10
  | .arg0 => 0x14
  | .arg1 => 0x18
  | .res => 0x1C
  | .npix => 0x20
  | .klen => 0x24
  | .h1 => 0x28
  | .h2 => 0x2C
  | .h3 => 0x30
  | .h4 => 0x34
  | .seed0 => 0x38
  | .seed1 => 0x3C
  | .seed2 => 0x40
  | .seed3 => 0x44
  | .a0 => 0x48
  | .a1 => 0x4C

/-- The registers in the order of their offsets (10_state.md R21). -/
def allRegs : List Reg :=
  [.id, .cmd, .status, .err, .errcmd, .arg0, .arg1, .res, .npix, .klen, .h1, .h2, .h3, .h4,
    .seed0, .seed1, .seed2, .seed3, .a0, .a1]

/-- The register at an aligned offset; none at the unmapped offsets 0x50 to 0xFC (10_state.md R23). -/
def regAt (off : BitVec 8) : Option Reg := allRegs.find? (fun r => regOffset r == off)

/-- The value a read of a register returns (10_state.md R22): ID is constant (R24), CMD reads 0 (R25), STATUS is
assembled (R26). -/
def readReg (r : Reg) (s : State) : Word :=
  match r with
  | .id => Config.blockId
  | .cmd => 0
  | .status => status s
  | .err => s.err
  | .errcmd => s.errcmd
  | .arg0 => s.arg0
  | .arg1 => s.arg1
  | .res => s.res
  | .npix => s.npix
  | .klen => s.klen
  | .h1 => s.h.x1
  | .h2 => s.h.x2
  | .h3 => s.h.x3
  | .h4 => s.h.x4
  | .seed0 => s.seed.x1
  | .seed1 => s.seed.x2
  | .seed2 => s.seed.x3
  | .seed3 => s.seed.x4
  | .a0 => s.a0
  | .a1 => s.a1

/-- The value a read at an aligned offset returns; 0 at an unmapped one (10_state.md R22, R23; log 8). -/
def readOffset (off : BitVec 8) (s : State) : Word :=
  match regAt off with
  | some r => readReg r s
  | none => 0

/-- What the commands of a block do: `exec`, or `execFor P`. -/
abbrev Execution : Type := Instr → State → Host.Outcome State Fault Refusal

/-- The command word `w` is written to CMD (40_system.md R103). -/
def issueWordBy (ex : Execution) (w : Word) (s : State) : Host.Outcome State Fault Refusal :=
  match decode w with
  | .cmd i => ex i s
  | .illegal _ => illegalCommand w s

/-- A write at an aligned offset (10_state.md R22, R23): CMD executes the word, ARG0 and ARG1 store it, every other
register and an unmapped offset ignore it. -/
def writeOffsetBy (ex : Execution) (off : BitVec 8) (v : Word) (s : State) : Host.Outcome State Fault Refusal :=
  match regAt off with
  | some .cmd => issueWordBy ex v s
  | some .arg0 => .next { s with arg0 := v }
  | some .arg1 => .next { s with arg1 := v }
  | _ => .next s

/-- Whether an access is an aligned 32-bit access, the only kind with a meaning (20_memory.md R65). -/
def alignedWord (size : Size) (off : BitVec 8) : Bool := size == .word && off.toNat % 4 == 0

/-- The state after a pulse of the hardware reset input (70_reset_and_hazards.md R280): the reset state, with the
memories' contents unspecified afresh; the inputs still to come stay (log 7). -/
def hwReset (s : State) : State := { State.reset with epoch := s.epoch + 1, inputs := s.inputs }

/-- The block takes one input (20_memory.md R66). -/
def takeInputBy (ex : Execution) (x : Input) (s : State) : Host.Outcome State Fault Refusal :=
  match x with
  | .read size off =>
    if alignedWord size off then .next { s with reply := some (readOffset off s) } else .refused .notAlignedWord
  | .write size off v =>
    if alignedWord size off then writeOffsetBy ex off v s else .refused .notAlignedWord
  | .hwReset => .next (hwReset s)

/-- The block takes the oldest input; with none it is idle and nothing changes (00_scope.md R17, 60_exceptions.md
R267; log 2). -/
def takeNextBy (ex : Execution) (s : State) : Host.Outcome State Fault Refusal :=
  match s.inputs with
  | [] => .next s
  | x :: rest => takeInputBy ex x { s with inputs := rest, reply := none }

/-! ### The same in the modelled block -/

/-- The command word `w` is written to CMD of the modelled block. -/
def issueWord (w : Word) (s : State) : Host.Outcome State Fault Refusal := issueWordBy exec w s

/-- A write at an aligned offset of the modelled block. -/
def writeOffset (off : BitVec 8) (v : Word) (s : State) : Host.Outcome State Fault Refusal := writeOffsetBy exec off v s

/-- The modelled block takes one input. -/
def takeInput (x : Input) (s : State) : Host.Outcome State Fault Refusal := takeInputBy exec x s

end Sys2Proof.Machine
end

