-- ==== Sys2Proof/Machine/Parametric.lean ====
section
/-! DEFINITION. The commands of the block with any parameter set: the record `Params` as an argument (00_scope.md R8, R17;
42_rng.md R135). Five commands depend on the set; the other eleven are the same with every set. -/

namespace Sys2Proof.Machine

/-- The effect of one command written to CMD (40_system.md R103) in the block with the parameter set `P`. -/
def execFor (P : Params) (i : Instr) (s : State) : Host.Outcome State Fault Refusal :=
  match i with
  | .nop => execNop s
  | .clr => execClr s
  | .clrErr => execClrErr s
  | .kdInit => execKdInitFor P s
  | .kdAbs k => execKdAbsFor P k s
  | .kdFin => execKdFinFor P s
  | .rngSeed g => execRngSeed g s
  | .rngNext g => execRngNextFor P g s
  | .pgShuf => execPgShufFor P s
  | .pgRd => execPgRd s
  | .ccEmb prof bit => execCcEmb prof bit s
  | .ccExt prof => execCcExt prof s
  | .pxEmb ch prof bit => execPxEmb ch prof bit s
  | .pxExt ch prof => execPxExt ch prof s
  | .cvWr d => execCvWr d s
  | .cvRd => execCvRd s

end Sys2Proof.Machine
end

