-- ==== Sys2Proof/Machine/Step.lean ====
section
/-! DEFINITION. One step: the block takes the oldest input from the host (00_scope.md R17, R18). -/

namespace Sys2Proof.Machine

/-- One step of the block with the parameter set `P`, the spec's `step : Params -> State -> HostAccess -> State x Reply`
(00_scope.md R17) with access and reply held in the state (log 1). -/
def stepFor (P : Params) (s : State) : Host.Outcome State Fault Refusal := takeNextBy (execFor P) s

/-- One step of the modelled block, whose parameter set is `params` (log 5). -/
def step (s : State) : Host.Outcome State Fault Refusal := takeNextBy exec s

/-- `s` with the command word of `nbits` bits whose value is `w` as the host's next access: a 32-bit write of it to
CMD, offset 0x04 (10_state.md R22). The block fetches nothing; its next command is the next word the host writes
(10_state.md R42; log 1). -/
def State.withFetchWord (s : State) (nbits w : Nat) : State :=
  { s with inputs := .write .word 0x04 (BitVec.ofNat 32 (w % 2 ^ nbits)) :: s.inputs }

end Sys2Proof.Machine
end

