-- ==== Sys2Proof/Machine/HostDriver.lean ====
section
/-! DEFINITION. The reference host driver (46_host_driver.md): software that drives the block, outside the step
function (R210; log 15). A driver is a program over register reads and writes; running it runs the block's step
once for each access, `step` or `stepFor P`. -/

namespace Sys2Proof.Machine

/-! ### Host programs -/

/-- A host program that ends with a value: it reads and writes registers (10_state.md R22), and what it does next may
depend on what it read. -/
inductive Prog (α : Type) where
  | done (a : α)
  | read (r : Reg) (next : Word → Prog α)
  | write (r : Reg) (v : Word) (next : Prog α)

/-- First `p`, then the program `f` makes of its value. -/
def bindProg {α β : Type} (p : Prog α) (f : α → Prog β) : Prog β :=
  match p with
  | .done a => f a
  | .read r next => .read r (fun v => bindProg (next v) f)
  | .write r v next => .write r v (bindProg next f)

/-- First `p`, then `q`. -/
def thenProg {β : Type} (p : Prog Unit) (q : Prog β) : Prog β := bindProg p (fun _ => q)

/-- `f` for each member of the list, in order. -/
def forEach {α : Type} (l : List α) (f : α → Prog Unit) : Prog Unit :=
  match l with
  | [] => .done ()
  | x :: l => thenProg (f x) (forEach l f)

/-- `f` for each member of the list, in order, with the values collected. -/
def collect {α β : Type} (l : List α) (f : α → Prog β) : Prog (List β) :=
  match l with
  | [] => .done []
  | x :: l => bindProg (f x) (fun b => bindProg (collect l f) (fun bs => .done (b :: bs)))

/-- The step `st` on one access: a 32-bit access at the register's offset. -/
def stepOn (st : State → Host.Outcome State Fault Refusal) (x : Input) (s : State) : Host.Outcome State Fault Refusal :=
  st { s with inputs := [x] }

/-- Run a host program on the block whose step is `st`: the value it ends with and the state then. A read always leaves
its value in `reply`. -/
def runProgBy {α : Type} (st : State → Host.Outcome State Fault Refusal) (p : Prog α) (s : State) :
    Host.Outcome (α × State) Fault Refusal :=
  match p with
  | .done a => .next (a, s)
  | .read r next =>
    match stepOn st (.read .word (regOffset r)) s with
    | .next t => runProgBy st (next (t.reply.getD 0)) t
    | .fault e => .fault e
    | .refused e => .refused e
  | .write r v next =>
    match stepOn st (.write .word (regOffset r) v) s with
    | .next t => runProgBy st next t
    | .fault e => .fault e
    | .refused e => .refused e

/-- Run a host program on the modelled block. -/
def runProg {α : Type} (p : Prog α) (s : State) : Host.Outcome (α × State) Fault Refusal := runProgBy step p s

/-! ### Listing lines and pseudo-instructions (30_encoding.md R90, R91) -/

/-- `RD reg`. -/
def rd (r : Reg) : Prog Word := .read r .done

/-- `WR reg, value`. -/
def wr (r : Reg) (v : Word) : Prog Unit := .write r v (.done ())

/-- A command line: its word written to CMD. -/
def command (i : Instr) : Prog Unit := wr .cmd (encode i)

/-- `DERIVE "text"`. -/
def derive (password : List CodeUnit) : Prog Unit :=
  thenProg (command .kdInit) (thenProg (forEach password (fun k => command (.kdAbs k))) (command .kdFin))

/-- `SEED g, v`. -/
def seedPseudo (g : Gen) (v : Word) : Prog Unit := thenProg (wr .arg0 v) (command (.rngSeed g))

/-- `DRAW g`. -/
def drawPseudo (g : Gen) : Prog Word := thenProg (command (.rngNext g)) (rd .res)

/-- `SHUFFLE n, s`. -/
def shufflePseudo (n s : Word) : Prog Unit :=
  thenProg (wr .arg0 n) (thenProg (wr .arg1 s) (command .pgShuf))

/-- `PERMRD i`. -/
def permRdPseudo (i : Word) : Prog Word := thenProg (wr .arg0 i) (thenProg (command .pgRd) (rd .res))

/-- `EMBED ch, prof, i, bit`. -/
def embedPseudo (ch : Channel) (p : Profile) (i : Word) (bit : Bool) : Prog Unit :=
  thenProg (wr .arg0 i) (command (.pxEmb ch (profileCode p) bit))

/-- `EXTRACT ch, prof, i`. -/
def extractPseudo (ch : Channel) (p : Profile) (i : Word) : Prog Word :=
  thenProg (wr .arg0 i) (thenProg (command (.pxExt ch (profileCode p))) (rd .res))

/-- `POKE a, d`. -/
def poke (a : Word) (d : Byte) : Prog Unit := thenProg (wr .arg0 a) (command (.cvWr d))

/-- `PEEK a`; the byte is the low byte of RES (45_canvas.md R195). -/
def peek (a : Word) : Prog Byte :=
  thenProg (wr .arg0 a) (thenProg (command .cvRd) (bindProg (rd .res) (fun v => .done (v.setWidth 8))))

/-! ### BitFramer (46_host_driver.md R211 to R216) -/

/-- The bits of `x`, the most significant first. -/
def bitsOf {w : Nat} (x : BitVec w) : List Bool := (List.range w).map (fun t => x.getMsbD t)

/-- The number whose bits are `l`, the most significant first. -/
def numberOf (l : List Nat) : Nat := l.foldl (fun v b => 2 * v + b) 0

/-- The low 8 bits of a character code; what is above is lost (46_host_driver.md R212). -/
def lowByte (c : CodeUnit) : Byte := c.setWidth 8

/-- `frame(message)`: the length as 16 bits, then each character's low 8 bits, the most significant bit first (R211).
Characters are UTF-16 code units (R216). -/
def frame (message : List CodeUnit) : List Bool :=
  bitsOf (BitVec.ofNat 16 message.length) ++ message.flatMap (fun c => bitsOf (lowByte c))

/-- `frameBitCount` of a message of `l` characters (R214). -/
def frameBitCount (l : Nat) : Nat := 16 + 8 * l

/-- The error kinds of the driver (R217), with the internal fault of R237, which carries ERR and ERRCMD. -/
inductive DriverError where
  | emptyMessage
  | emptyPassword
  | messageTooLong
  | capacityExceeded
  | malformedCanvas
  | corruptOrWrongPassword
  | canvasTooLarge
  | internalFault (err errcmd : Word)
  deriving DecidableEq, Repr

/-- The character at place `q` of a frame whose bit `t` is `bit t` (R213). -/
def frameChar (bit : Nat → Nat) (q : Nat) : CodeUnit :=
  BitVec.ofNat 16 (numberOf ((List.range 8).map (fun b => bit (16 + 8 * q + b))))

/-- `unframe(bits)` with `n` bits available (R213). -/
def unframe (bit : Nat → Nat) (n : Nat) : Except DriverError (List CodeUnit) :=
  if n < 16 then .error .corruptOrWrongPassword
  else
    let l := numberOf ((List.range 16).map bit)
    if frameBitCount l > n then .error .corruptOrWrongPassword
    else .ok ((List.range l).map (frameChar bit))

/-! ### Configuration and checks (R217 to R222, R231) -/

/-- The caller's pixel buffer (00_scope.md R15). -/
structure Canvas where
  width : Nat
  height : Nat
  pixels : List Byte
  deriving DecidableEq, Repr

/-- `totalPixels` (00_scope.md R15). -/
def totalPixels (c : Canvas) : Nat := c.width * c.height

/-- The driver's configuration (R218), and whether it issues the optional `CLR` before and after a call (R223, R232;
log 15). -/
structure DriverConfig where
  ch : Channel
  prof : Profile
  cover : Bool
  clearBefore : Bool
  clearAfter : Bool
  deriving DecidableEq, Repr

/-- The checks of Encode, in order, before any command (R221). -/
def checkEncode (c : Canvas) (password message : List CodeUnit) : Option DriverError :=
  if message.length = 0 then some .emptyMessage
  else if message.length > 65535 then some .messageTooLong
  else if password.length = 0 then some .emptyPassword
  else if c.pixels.length ≠ 4 * totalPixels c then some .malformedCanvas
  else if totalPixels c > Config.nmax then some .canvasTooLarge
  else if frameBitCount message.length > totalPixels c then some .capacityExceeded
  else none

/-- The checks of Decode, in order, before any command (R231). -/
def checkDecode (c : Canvas) (password : List CodeUnit) : Option DriverError :=
  if password.length = 0 then some .emptyPassword
  else if c.pixels.length ≠ 4 * totalPixels c then some .malformedCanvas
  else if totalPixels c > Config.nmax then some .canvasTooLarge
  else if totalPixels c < 16 then some .corruptOrWrongPassword
  else none

/-! ### Encode and Decode (R223 to R229, R232, R237) -/

/-- The optional `CLR`. -/
def optionalClr (on : Bool) : Prog Unit := if on then command .clr else .done ()

/-- A driver fault: ERR and ERRCMD are read for the record, and the block is cleared (R237). -/
def driverFault {α : Type} : Prog (Except DriverError α) :=
  bindProg (rd .err) fun e =>
    bindProg (rd .errcmd) fun w => thenProg (command .clr) (.done (.error (.internalFault e w)))

/-- Go on with `p` if the STATUS bit `k` has the value `want`, else a driver fault (R223 E3 and E7, R232 D3 and D8). -/
def requireStatus {α : Type} (k : Nat) (want : Bool) (p : Prog (Except DriverError α)) :
    Prog (Except DriverError α) :=
  bindProg (rd .status) fun v => if v.getLsbD k = want then p else driverFault

/-- Step E4 with cover fill: every byte of the canvas from generator 1, in ascending address, the top byte of each
draw (R224). -/
def coverFill (n : Nat) (s1 : Word) : Prog Unit :=
  thenProg (seedPseudo .g1 s1)
    (forEach (List.range (4 * n)) fun a =>
      bindProg (drawPseudo .g1) fun u => poke (BitVec.ofNat 32 a) ((u >>> 24).setWidth 8))

/-- Load the caller's pixels (R225 and step D2 of R232). -/
def loadPixels (pixels : List Byte) : Prog Unit :=
  forEach pixels.zipIdx fun x => poke (BitVec.ofNat 32 x.2) x.1

/-- Step E6: position `i` carries frame bit `i` (R228). -/
def embedFrame (ch : Channel) (p : Profile) (f : List Bool) : Prog Unit :=
  forEach f.zipIdx fun x => embedPseudo ch p (BitVec.ofNat 32 x.2) x.1

/-- Step E8: read the whole canvas back (R229). -/
def readBack (n : Nat) : Prog (List Byte) := collect (List.range (4 * n)) fun a => peek (BitVec.ofNat 32 a)

/-- The Encode sequence E1 to E9, after validation (R223). -/
def encodeSequence (cfg : DriverConfig) (c : Canvas) (password message : List CodeUnit) :
    Prog (Except DriverError Canvas) :=
  thenProg (optionalClr cfg.clearBefore) <|
  thenProg (derive password) <|
  requireStatus 2 true <|
  bindProg (rd .seed0) fun s0 =>
  bindProg (rd .seed1) fun s1 =>
  thenProg (if cfg.cover then coverFill (totalPixels c) s1 else loadPixels c.pixels) <|
  thenProg (shufflePseudo (BitVec.ofNat 32 (totalPixels c)) s0) <|
  thenProg (embedFrame cfg.ch cfg.prof (frame message)) <|
  requireStatus 0 false <|
  bindProg (readBack (totalPixels c)) fun pixels =>
  thenProg (optionalClr cfg.clearAfter) <|
  .done (.ok { c with pixels := pixels })

/-- `Encode(canvas, password, message)` (R221, R223). -/
def encodeCanvas (cfg : DriverConfig) (c : Canvas) (password message : List CodeUnit) :
    Prog (Except DriverError Canvas) :=
  match checkEncode c password message with
  | some e => .done (.error e)
  | none => encodeSequence cfg c password message

/-- Extract the bits at the positions `start` to `start + count - 1`, as the numbers RES holds (R232 D5, D7). -/
def extractBits (ch : Channel) (p : Profile) (start count : Nat) : Prog (List Nat) :=
  collect (List.range count) fun t =>
    bindProg (extractPseudo ch p (BitVec.ofNat 32 (start + t))) fun v => .done v.toNat

/-- The Decode sequence D1 to D9, after validation (R232). -/
def decodeSequence (cfg : DriverConfig) (c : Canvas) (password : List CodeUnit) :
    Prog (Except DriverError (List CodeUnit)) :=
  thenProg (optionalClr cfg.clearBefore) <|
  thenProg (loadPixels c.pixels) <|
  thenProg (derive password) <|
  requireStatus 2 true <|
  bindProg (rd .seed0) fun s0 =>
  thenProg (shufflePseudo (BitVec.ofNat 32 (totalPixels c)) s0) <|
  bindProg (extractBits cfg.ch cfg.prof 0 16) fun header =>
  if frameBitCount (numberOf header) > totalPixels c then .done (.error .corruptOrWrongPassword)
  else
    bindProg (collect (List.range (numberOf header)) fun q =>
      bindProg (extractBits cfg.ch cfg.prof (16 + 8 * q) 8) fun bits => .done (BitVec.ofNat 16 (numberOf bits)))
      fun text =>
    requireStatus 0 false <|
    thenProg (optionalClr cfg.clearAfter) <|
    .done (.ok text)

/-- `Decode(canvas, password)` (R231, R232). -/
def decodeCanvas (cfg : DriverConfig) (c : Canvas) (password : List CodeUnit) :
    Prog (Except DriverError (List CodeUnit)) :=
  match checkDecode c password with
  | some e => .done (.error e)
  | none => decodeSequence cfg c password

end Sys2Proof.Machine
end

