-- ==== Sys2Proof/Safety.lean ====
section
/-! DEFINITION. What counts as a good state, in the terms the claims use: the invariants of 10_state.md R48, and the
form of the model's data. -/

namespace Sys2Proof.Machine

/-- The block is not in error-stop (00_scope.md R16). -/
def NoError (s : State) : Prop := s.err = 0

/-- `PERM[0..NPIX)` contains each value of `[0, NPIX)` exactly once (10_state.md R48 clause (c)). -/
def PermValid (s : State) : Prop :=
  ∀ q < s.npix.toNat, ∃! i, i < s.npix.toNat ∧ (permRead s i).toNat = q

/-- The invariants of 10_state.md R48, clause by clause. -/
structure Inv (s : State) : Prop where
  /-- (a) `ERR[31:8] = 0` -/
  err_high : s.err.toNat < 256
  /-- (b) `ERR = 0` implies `ERRCMD = 0` -/
  errcmd_zero : s.err = 0 → s.errcmd = 0
  /-- (c) `PV = 1` implies `NPIX <= NMAX` and PERM holds a permutation of `[0, NPIX)` -/
  perm_valid : s.pv = true → s.npix.toNat ≤ Config.nmax ∧ PermValid s
  /-- (d) `PV = 0` implies `NPIX = 0` -/
  npix_zero : s.pv = false → s.npix = 0
  /-- (e) `STATUS[31:6] = 0` -/
  status_high : ∀ k, 6 ≤ k → (status s).getLsbD k = false
  /-- (f) `KDA = 1` implies `SEEDV = 0` -/
  seeds_stale : s.kda = true → s.seedv = false

/-- The form of the model's data: CANVAS's list is in its canonical form, and PERM's list is no longer than PERM
(10_state.md R43, R44). -/
structure DataForm (s : State) : Prop where
  canvas_wf : s.canvas.wf
  perm_len : s.perm.length ≤ Config.nmax

/-- The commands of a list executed one after another, as the host would write them with no register write between
(20_memory.md R70), `ex` being what the block's commands do: `exec`, or `execFor P`. -/
def execAll (ex : Execution) : List Instr → State → Host.Outcome State Fault Refusal
  | [], s => .next s
  | i :: l, s =>
    match ex i s with
    | .next t => execAll ex l t
    | .fault e => .fault e
    | .refused e => .refused e

/-- The state word of a generator after `m` draws from the state word `a` (42_rng.md R137). -/
def stateAfter (P : Params) (m : Nat) (a : Word) : Word := (fun x => (rngStep P x).1)^[m] a

/-- The draw number `m` (from 1) of a generator seeded with `a` (42_rng.md R137). -/
def drawNumber (P : Params) (m : Nat) (a : Word) : Word := (rngStep P (stateAfter P (m - 1) a)).2

end Sys2Proof.Machine
end

