-- ==== Sys2Proof/Certificates/Slice0/Obligations.lean ====
section
/-! DEFINITION. The statements for the provers: what the numbered rules of the spec say of the machine. -/

open Sys2Proof Sys2Proof.Machine

/-! ### Encoding (30_encoding.md) -/

/-- Decoding the word of a well-formed command gives the command back, with every operand. -/
def Obligations.DecodeOfEncodeIsTheCommand : Prop :=
  ∀ i : Instr, i.wellFormed = true → decode (encode i) = .cmd i

/-- A word that decodes to a command is the word of that command, and the command is well-formed: no word but its own
decodes to a command. -/
def Obligations.EncodeOfDecodeIsTheWord : Prop :=
  ∀ (w : Word) (i : Instr), decode w = .cmd i → i.wellFormed = true ∧ encode i = w

/-- 30_encoding.md R82, its second form: a word decodes to a row's command exactly when it has the row's pattern under
the row's mask and, where `PROF` is used, `PROF` is not 3; the command then has its fields from the word; every
command's row is in the table; no two rows match the same word. -/
def Obligations.LegalWordsAreTheTableRows : Prop :=
  (∀ (w : Word) (r : OpcodeRow), r ∈ opcodeTable →
    (w &&& r.mask = r.pattern ∧ (r.usesProf = true → w.extractLsb' 16 2 ≠ 3) ↔
      ∃ i, decode w = .cmd i ∧ opcodeRow i = r ∧ encode i = w)) ∧
  (∀ i : Instr, opcodeRow i ∈ opcodeTable) ∧
  (∀ (w : Word) (r r' : OpcodeRow), r ∈ opcodeTable → r' ∈ opcodeTable →
    w &&& r.mask = r.pattern → w &&& r'.mask = r'.pattern → r = r')

/-- The worked encodings of 30_encoding.md, section 5 (R92), and the two words of its section 4 (R87): the all-zero word
is `NOP`, the all-ones word is ILLEGAL. -/
def Obligations.WorkedEncodingsDecode : Prop :=
  decode 0x11000073 = .cmd (.kdAbs 0x73) ∧ decode 0x21010000 = .cmd (.rngNext .g1) ∧
  decode 0x40010001 = .cmd (.ccEmb 1 true) ∧ decode 0x48300001 = .cmd (.pxEmb .a 0 true) ∧
  decode 0x49310000 = .cmd (.pxExt .a 1) ∧ decode 0x49020000 = .cmd (.pxExt .r 2) ∧
  decode 0x500000FE = .cmd (.cvWr 0xFE) ∧ (∃ why, decode 0x40030000 = .illegal why) ∧
  (∃ why, decode 0x10000001 = .illegal why) ∧ (∃ why, decode 0x21020000 = .illegal why) ∧
  decode 0x00000000 = .cmd .nop ∧ ∃ why, decode 0xFFFFFFFF = .illegal why

/-- 30_encoding.md R86: the illegal words are those with an unlisted `OPC`, those with a listed `OPC` and a non-zero bit
outside the row's used fields, and those with `PROF` = 3 where it is used; and such a word, executed with `ERR` =
0, ends with `ILLCMD`, changing nothing else, and is ignored in error-stop. -/
def Obligations.IllegalWordsAreListedAndRaiseIllcmd : Prop :=
  (∀ w : Word, (∃ why, decode w = .illegal why) ↔
    ((∀ r ∈ opcodeTable, w.extractLsb' 24 8 ≠ r.pattern.extractLsb' 24 8) ∨
      (∃ r ∈ opcodeTable, w.extractLsb' 24 8 = r.pattern.extractLsb' 24 8 ∧ w &&& r.mask ≠ r.pattern) ∨
      (∃ r ∈ opcodeTable, w &&& r.mask = r.pattern ∧ r.usesProf = true ∧ w.extractLsb' 16 2 = 3))) ∧
  (∀ (w : Word) (why : Illegal) (s : State), decode w = .illegal why →
    (s.err = 0 → issueWord w s = .next { s with err := 1, errcmd := w }) ∧
    (s.err ≠ 0 → issueWord w s = .next s))

/-! ### The host's accesses (10_state.md, 20_memory.md, 00_scope.md) -/

/-- A command word the host writes to CMD is decoded and executed in that step: the step is `exec` of the decoded
command on the state with the access taken off the inputs. That the host's accesses stand in a list of the state,
and a read's value in `reply`, is the model's choice (log 1). The same of the block with any parameter set. -/
def Obligations.StepRunsTheDecodedCommand : Prop :=
  ∀ (s : State) (rest : List Input) (w : Word) (i : Instr), decode w = .cmd i →
    s.inputs = .write .word 0x04 w :: rest → step s = exec i { s with inputs := rest, reply := none } ∧
      ∀ P : Params, stepFor P s = execFor P i { s with inputs := rest, reply := none }

/-- What one access does, by the register map of 10_state.md section 2 (R21, R22): a read answers the register's value
and changes nothing but the model's own fields (log 1); CMD reads 0; a write to ARG0 or ARG1 stores the word; a
write to a read-only register changes nothing; a write to CMD executes the word; all of it whether or not `ERR` is
0. -/
def Obligations.RegisterAccessRules : Prop :=
  ∀ (s : State) (rest : List Input) (off : BitVec 8) (v : Word),
    (s.inputs = .read .word off :: rest →
      (off, v) ∈ ([(0x00, 0x534B5031), (0x04, 0), (0x08, status s), (0x0C, s.err), (0x10, s.errcmd), (0x14, s.arg0),
        (0x18, s.arg1), (0x1C, s.res), (0x20, s.npix), (0x24, s.klen), (0x28, s.h.x1), (0x2C, s.h.x2), (0x30, s.h.x3),
        (0x34, s.h.x4), (0x38, s.seed.x1), (0x3C, s.seed.x2), (0x40, s.seed.x3), (0x44, s.seed.x4), (0x48, s.a0),
        (0x4C, s.a1)] : List (BitVec 8 × Word)) →
      step s = .next { s with inputs := rest, reply := some v }) ∧
    (s.inputs = .write .word 0x14 v :: rest → step s = .next { s with inputs := rest, reply := none, arg0 := v }) ∧
    (s.inputs = .write .word 0x18 v :: rest → step s = .next { s with inputs := rest, reply := none, arg1 := v }) ∧
    (s.inputs = .write .word off v :: rest →
      off ∈ ([0x00, 0x08, 0x0C, 0x10, 0x1C, 0x20, 0x24, 0x28, 0x2C, 0x30, 0x34, 0x38, 0x3C, 0x40, 0x44, 0x48,
        0x4C] : List (BitVec 8)) →
      step s = .next { s with inputs := rest, reply := none }) ∧
    (s.inputs = .write .word 0x04 v :: rest → step s = issueWord v { s with inputs := rest, reply := none })

/-- 10_state.md R23: at an unmapped aligned offset 0x50 to 0xFC a read returns 0, a write changes nothing, and neither
raises an error. -/
def Obligations.UnmappedOffsetsReadZeroIgnoreWrites : Prop :=
  ∀ (s : State) (off : BitVec 8) (v : Word), 0x50 ≤ off.toNat → off.toNat % 4 = 0 →
    (readOffset off s = 0 ∧ takeInput (.read .word off) s = .next { s with reply := some 0 }) ∧
    takeInput (.write .word off v) s = .next s

/-- An access that is not 32 bits wide, or not at a multiple of 4, has no meaning and is refused (20_memory.md section 3,
R65; log 6); an aligned 32-bit access never is. -/
def Obligations.OnlyAlignedWordAccessesHaveMeaning : Prop :=
  ∀ (s : State) (rest : List Input) (size : Size) (off : BitVec 8) (v : Word),
    ((size ≠ .word ∨ off.toNat % 4 ≠ 0) →
      (s.inputs = .read size off :: rest ∨ s.inputs = .write size off v :: rest) → step s = .refused .notAlignedWord) ∧
    (size = .word → off.toNat % 4 = 0 →
      (s.inputs = .read size off :: rest ∨ s.inputs = .write size off v :: rest) → ∃ t, step s = .next t)

/-- 10_state.md R26 and R41: the bits of STATUS. -/
def Obligations.StatusBitsAreTheFlags : Prop :=
  ∀ (s : State) (k : Nat), (status s).getLsbD k =
    (if k = 0 then decide (s.err ≠ 0) else if k = 1 then s.kda else if k = 2 then s.seedv
      else if k = 3 then s.rv0 else if k = 4 then s.rv1 else if k = 5 then s.pv else false)

/-! ### Reset (10_state.md, 70_reset_and_hazards.md) -/

/-- 10_state.md section 11, R46: after reset `ID` is 0x534B5031, every other register 0, all six flags 0, `STATUS` 0; a byte of
CANVAS is the free value of its address, one arbitrary definite byte. That an unwritten byte is a free value, where R46
also lets a model fault, is the model's choice (log 3), and so is the number 0 of the first reset (log 7). -/
def Obligations.ResetValues : Prop :=
  readReg .id State.reset = 0x534B5031 ∧ (∀ r : Reg, r ≠ .id → readReg r State.reset = 0) ∧
  errF State.reset = false ∧ State.reset.kda = false ∧ State.reset.seedv = false ∧ State.reset.rv0 = false ∧
  State.reset.rv1 = false ∧ State.reset.pv = false ∧ (∀ a, memRead State.reset a = Config.canvas0 0 a)

/-- A pulse of the reset input gives the reset state with the memories unspecified afresh (70_reset_and_hazards.md R280);
that it is one input among the host's accesses is the model's choice (log 7). -/
def Obligations.HardwareResetGivesTheResetState : Prop :=
  ∀ (s : State) (rest : List Input), s.inputs = .hwReset :: rest →
    step s = .next { State.reset with epoch := s.epoch + 1, inputs := rest }

/-- Reset and `CLR` give the same registers and flags and differ in CANVAS, which `CLR` keeps and reset leaves to a new
free value (70_reset_and_hazards.md section 1, R281; that a pulse of the reset input is an access, and that it starts
a new free value, is log 7). -/
def Obligations.ClrAgreesWithResetButForCanvas : Prop :=
  ∀ s t u : State, exec .clr s = .next t → takeInput .hwReset s = .next u →
    (∀ r : Reg, readReg r t = readReg r u) ∧
    (t.kda = u.kda ∧ t.seedv = u.seedv ∧ t.rv0 = u.rv0 ∧ t.rv1 = u.rv1 ∧ t.pv = u.pv) ∧
    (∀ a, memRead t a = memRead s a) ∧ (∀ a, memRead u a = Config.canvas0 (s.epoch + 1) a)

/-! ### System commands (40_system.md) -/

/-- 40_system.md R100: from any state, in error-stop too, `NOP`, word 0x00000000, gives the same state. -/
def Obligations.NopChangesNothing : Prop :=
  encode .nop = 0x00000000 ∧ ∀ s : State, exec .nop s = .next s

/-- 40_system.md section 3, R101: `CLR`, word 0x01000000, in error-stop too, gives every register and flag its reset value
and keeps CANVAS. That it writes no entry of PERM, of which R101 says only that it is not readable any more, is the
model's reading (log 11). -/
def Obligations.ClrClearsRegistersAndFlags : Prop :=
  encode .clr = 0x01000000 ∧ ∀ s : State, exec .clr s = .next
    { s with
      err := 0, errcmd := 0, arg0 := 0, arg1 := 0, res := 0, npix := 0, klen := 0
      h := ⟨0, 0, 0, 0⟩
      seed := ⟨0, 0, 0, 0⟩
      a0 := 0, a1 := 0
      kda := false, seedv := false, rv0 := false, rv1 := false, pv := false }

/-- 40_system.md R102 and 60_exceptions.md R258: `CLRERR`, word 0x02000000, in error-stop too, sets `ERR` and `ERRCMD` to
0 and changes nothing else; the state after it is the state before the command that raised the error, but for
what the host wrote to ARG0 and ARG1 in between. -/
def Obligations.ClrErrClearsTheErrorOnly : Prop :=
  encode .clrErr = 0x02000000 ∧ (∀ s : State, exec .clrErr s = .next { s with err := 0, errcmd := 0 }) ∧
  (∀ (w : Word) (s t : State) (x y : Word), s.err = 0 → s.errcmd = 0 → issueWord w s = .next t → t.err ≠ 0 →
    exec .clrErr { t with arg0 := x, arg1 := y } = .next { s with arg0 := x, arg1 := y })

/-! ### Errors (60_exceptions.md) -/

/-- 60_exceptions.md R255: a command that raises an error writes the code to `ERR` and its word to `ERRCMD`, and nothing
else. -/
def Obligations.ErrorEntryIsPrecise : Prop :=
  ∀ (w : Word) (s t : State), s.err = 0 → issueWord w s = .next t → t.err ≠ 0 →
    ∃ code : ErrCode, t = { s with err := errCode code, errcmd := w }

/-- 60_exceptions.md R250: which command raises which code, and when; the faulting word is in `ERRCMD`, the operands are
unchanged in ARG0 and ARG1; a command that decodes and meets its condition raises none. -/
def Obligations.EachErrorIsRaisedExactlyWhen : Prop :=
  (∀ (w : Word) (i : Instr) (s : State), decode w = .cmd i → s.err = 0 → ∃ t, issueWord w s = .next t ∧
    (t.err ≠ 0 → t.errcmd = w ∧ t.arg0 = s.arg0 ∧ t.arg1 = s.arg1) ∧
    t.err = (match i with
      | .kdAbs _ | .kdFin => if s.kda then 0 else 2
      | .rngNext .g0 => if s.rv0 then 0 else 3
      | .rngNext .g1 => if s.rv1 then 0 else 3
      | .pgShuf => if s.arg0.toNat > 1048576 then 4 else 0
      | .pgRd | .pxEmb _ _ _ | .pxExt _ _ => if s.pv = false then 5 else if s.arg0.toNat ≥ s.npix.toNat then 6 else 0
      | .cvWr _ | .cvRd => if s.arg0.toNat ≥ 4194304 then 7 else 0
      | .nop | .clr | .clrErr | .kdInit | .rngSeed _ | .ccEmb _ _ | .ccExt _ => 0)) ∧
  (∀ (w : Word) (why : Illegal) (s : State), decode w = .illegal why → s.err = 0 →
    issueWord w s = .next { s with err := 1, errcmd := w })

/-- 60_exceptions.md R256: in error-stop `NOP`, `CLR` and `CLRERR` are executed, every other word, legal or ILLEGAL, is
ignored, and register reads and the writes of ARG0 and ARG1 work. -/
def Obligations.ErrorStopIgnoresAllButThreeCommands : Prop :=
  ∀ s : State, s.err ≠ 0 →
    (∀ w : Word, decode w ≠ .cmd .nop → decode w ≠ .cmd .clr → decode w ≠ .cmd .clrErr → issueWord w s = .next s) ∧
    (∀ w : Word, decode w = .cmd .nop → issueWord w s = .next s) ∧
    (∀ w : Word, decode w = .cmd .clrErr → issueWord w s = .next { s with err := 0, errcmd := 0 }) ∧
    (∀ w : Word, decode w = .cmd .clr → ∃ t, issueWord w s = .next t ∧ (∀ r : Reg, r ≠ .id → readReg r t = 0) ∧
      ∀ a, memRead t a = memRead s a) ∧
    (∀ r : Reg, readOffset (regOffset r) s = readReg r s ∧
      takeInput (.read .word (regOffset r)) s = .next { s with reply := some (readReg r s) }) ∧
    (∀ v : Word, takeInput (.write .word 0x14 v) s = .next { s with arg0 := v }) ∧
    (∀ v : Word, takeInput (.write .word 0x18 v) s = .next { s with arg1 := v })

/-- 60_exceptions.md R257: the checks are made in the order error-stop, decoding, the state check, the range check, and
the first that fails is the one reported. -/
def Obligations.ErrorPriority : Prop :=
  (∀ (w : Word) (s t : State), s.err ≠ 0 → issueWord w s = .next t → t.err = s.err ∨ t.err = 0) ∧
  (∀ (w : Word) (why : Illegal) (s : State), s.err = 0 → decode w = .illegal why →
    ∃ t, issueWord w s = .next t ∧ t.err = 1) ∧
  (∀ (ch : Channel) (bit : Bool), (∃ why, decode (encode (.pxEmb ch 3 bit)) = .illegal why) ∧
    ∃ why, decode (encode (.pxExt ch 3)) = .illegal why) ∧
  (∀ (w : Word) (i : Instr) (s : State), s.err = 0 → s.pv = false → decode w = .cmd i →
    (i = .pgRd ∨ (∃ ch prof bit, i = .pxEmb ch prof bit) ∨ ∃ ch prof, i = .pxExt ch prof) →
    ∃ t, issueWord w s = .next t ∧ t.err = 5)

/-! ### Key derivation (41_key_derivation.md) -/

/-- The parameters the machine runs with are the spec's default set P0 (00_scope.md section 3, 42_rng.md section 1), which
the spec takes from general knowledge; that the modelled block has this set is the model's choice (log 5). They
meet what 00_scope.md R10 asks of any set. The block's commands and its step are those of the block with any parameter
set, taken at this one. -/
def Obligations.ParametersAreTheDefaultSet : Prop :=
  params.kdInit = ⟨1779033703, 3144134277, 1013904242, 2773480762⟩ ∧
  params.kdMul = ⟨597399067, 2869860233, 951274213, 2716044179⟩ ∧ params.rngInc = 1831565813 ∧
  (∀ h, params.kdFinalize h = h) ∧ params.Legal ∧
  (∀ t0 t1 t2 : Word, t1 = (t0 ^^^ (t0 >>> 15)) * (t0 ||| 1) →
    t2 = t1 ^^^ (t1 + (t1 ^^^ (t1 >>> 7)) * (t1 ||| 61)) → params.rngOut t0 = t2 ^^^ (t2 >>> 14)) ∧
  params.rngOut 0x6D2B79F5 = 0x4434B462 ∧
  (∀ (i : Instr) (s : State), exec i s = execFor params i s) ∧ ∀ s : State, step s = stepFor params s

/-- 41_key_derivation.md R112: `KD.INIT`, word 0x10000000, whether or not a derivation is open; in the modelled block and
with every parameter set. -/
def Obligations.KdInitOpensADerivation : Prop :=
  encode .kdInit = 0x10000000 ∧ ∀ s : State, s.err = 0 →
    exec .kdInit s = .next
      { s with h := ⟨params.kdInit.x1, params.kdInit.x2, params.kdInit.x3, params.kdInit.x4⟩, klen := 0, kda := true,
               seedv := false } ∧
    ∀ P : Params, execFor P .kdInit s = .next
      { s with h := ⟨P.kdInit.x1, P.kdInit.x2, P.kdInit.x3, P.kdInit.x4⟩, klen := 0, kda := true, seedv := false }

/-- 41_key_derivation.md R113 with the round of R111: each accumulator takes its neighbour xor the product of itself xor
the zero-extended code with its multiplier, the fourth taking the NEW first; `KLEN` counts and wraps; with no
derivation open `KDSEQ`. The word is 0x11000000 + k. In the modelled block and with every parameter set. -/
def Obligations.KdAbsAbsorbsACodeUnit : Prop :=
  (∀ k : CodeUnit, (encode (.kdAbs k)).toNat = 0x11000000 + k.toNat) ∧
  (∀ (k : CodeUnit) (s : State) (kw h1 h2 h3 h4 : Word), s.err = 0 → s.kda = true → kw.toNat = k.toNat →
    h1 = s.h.x2 ^^^ ((s.h.x1 ^^^ kw) * params.kdMul.x1) → h2 = s.h.x3 ^^^ ((s.h.x2 ^^^ kw) * params.kdMul.x2) →
    h3 = s.h.x4 ^^^ ((s.h.x3 ^^^ kw) * params.kdMul.x3) → h4 = h1 ^^^ ((s.h.x4 ^^^ kw) * params.kdMul.x4) →
    exec (.kdAbs k) s = .next { s with h := ⟨h1, h2, h3, h4⟩, klen := s.klen + 1 }) ∧
  (∀ (P : Params) (k : CodeUnit) (s : State) (kw h1 h2 h3 h4 : Word), s.err = 0 → s.kda = true → kw.toNat = k.toNat →
    h1 = s.h.x2 ^^^ ((s.h.x1 ^^^ kw) * P.kdMul.x1) → h2 = s.h.x3 ^^^ ((s.h.x2 ^^^ kw) * P.kdMul.x2) →
    h3 = s.h.x4 ^^^ ((s.h.x3 ^^^ kw) * P.kdMul.x3) → h4 = h1 ^^^ ((s.h.x4 ^^^ kw) * P.kdMul.x4) →
    execFor P (.kdAbs k) s = .next { s with h := ⟨h1, h2, h3, h4⟩, klen := s.klen + 1 }) ∧
  (∀ (k : CodeUnit) (s : State), s.err = 0 → s.kda = false →
    exec (.kdAbs k) s = .next { s with err := 2, errcmd := encode (.kdAbs k) } ∧
    ∀ P : Params, execFor P (.kdAbs k) s = .next { s with err := 2, errcmd := encode (.kdAbs k) })

/-- 41_key_derivation.md R114: `KD.FIN`, word 0x12000000; the finalisation of the modelled block is the identity, that of
another parameter set is the set's; with no derivation open `KDSEQ`. -/
def Obligations.KdFinMakesTheSeeds : Prop :=
  encode .kdFin = 0x12000000 ∧ ∀ s : State, s.err = 0 →
    (s.kda = true → exec .kdFin s = .next
      { s with seed := ⟨s.h.x1, s.h.x2, s.h.x3, s.h.x4⟩, seedv := true, kda := false }) ∧
    (s.kda = false → exec .kdFin s = .next { s with err := 2, errcmd := 0x12000000 }) ∧
    (∀ P : Params,
      (s.kda = true → execFor P .kdFin s = .next { s with seed := P.kdFinalize s.h, seedv := true, kda := false }) ∧
      (s.kda = false → execFor P .kdFin s = .next { s with err := 2, errcmd := 0x12000000 }))

/-- The composite law of 41_key_derivation.md section 1 (R115): the sequence `KD.INIT; KD.ABS k_1; ...; KD.ABS k_m;
KD.FIN` from any state with `ERR` = 0 gives the accumulators, seeds, `KLEN` and flags that depend on the code units and
the parameters only, and changes nothing else; with every parameter set, and in the modelled block. -/
def Obligations.DerivationIsTheFoldOfTheRounds : Prop :=
  ∀ (P : Params) (ex : Execution) (password : List CodeUnit) (s : State), ex = execFor P ∨ P = params ∧ ex = exec →
    s.err = 0 →
    execAll ex (.kdInit :: (password.map Instr.kdAbs ++ [.kdFin])) s = .next
      { s with
        h := password.foldl (kdRound P) P.kdInit
        seed := P.kdFinalize (password.foldl (kdRound P) P.kdInit)
        klen := BitVec.ofNat 32 password.length
        kda := false, seedv := true }

/-! ### The generators (42_rng.md) -/

/-- 42_rng.md R132: `RNG.SEED g`, word 0x20000000 + (g << 16). -/
def Obligations.RngSeedSeedsOneGenerator : Prop :=
  encode (.rngSeed .g0) = 0x20000000 ∧ encode (.rngSeed .g1) = 0x20010000 ∧ ∀ s : State, s.err = 0 →
    exec (.rngSeed .g0) s = .next { s with a0 := s.arg0, rv0 := true } ∧
    exec (.rngSeed .g1) s = .next { s with a1 := s.arg0, rv1 := true }

/-- 42_rng.md R133 with the draw of R131: `RNG.NEXT g`, word 0x21000000 + (g << 16); from a generator never seeded
`NORNG`. In the modelled block and, as R135 asks, with every increment and output function. -/
def Obligations.RngNextDraws : Prop :=
  encode (.rngNext .g0) = 0x21000000 ∧ encode (.rngNext .g1) = 0x21010000 ∧ ∀ s : State, s.err = 0 →
    (s.rv0 = true → exec (.rngNext .g0) s = .next
      { s with a0 := s.a0 + params.rngInc, res := params.rngOut (s.a0 + params.rngInc) }) ∧
    (s.rv1 = true → exec (.rngNext .g1) s = .next
      { s with a1 := s.a1 + params.rngInc, res := params.rngOut (s.a1 + params.rngInc) }) ∧
    (s.rv0 = false → exec (.rngNext .g0) s = .next { s with err := 3, errcmd := 0x21000000 }) ∧
    (s.rv1 = false → exec (.rngNext .g1) s = .next { s with err := 3, errcmd := 0x21010000 }) ∧
    (∀ P : Params,
      (s.rv0 = true → execFor P (.rngNext .g0) s = .next
        { s with a0 := s.a0 + P.rngInc, res := P.rngOut (s.a0 + P.rngInc) }) ∧
      (s.rv1 = true → execFor P (.rngNext .g1) s = .next
        { s with a1 := s.a1 + P.rngInc, res := P.rngOut (s.a1 + P.rngInc) }) ∧
      (s.rv0 = false → execFor P (.rngNext .g0) s = .next { s with err := 3, errcmd := 0x21000000 }) ∧
      (s.rv1 = false → execFor P (.rngNext .g1) s = .next { s with err := 3, errcmd := 0x21010000 }))

/-- The state sequence of 42_rng.md section 3 (R137): after `RNG.SEED g` and `m` draws the state word is the seed plus `m`
increments and the last draw is `RNG_OUT` of it; with every parameter set (section 1, R135), and in the modelled
block. -/
def Obligations.DrawsFollowTheStateSequence : Prop :=
  ∀ (P : Params) (ex : Execution) (g : Gen) (m : Nat) (s : State), ex = execFor P ∨ P = params ∧ ex = exec → s.err = 0 →
    ∃ t, execAll ex (.rngSeed g :: List.replicate m (.rngNext g)) s = .next t ∧
      genState g t = BitVec.ofNat 32 (s.arg0.toNat + m * P.rngInc.toNat) ∧
      (1 ≤ m → t.res = P.rngOut (BitVec.ofNat 32 (s.arg0.toNat + m * P.rngInc.toNat)))

/-- The period of 42_rng.md section 3 (R137), for every legal parameter set: the state word visits all 2^32 words before repeating, the
draws repeat after 2^32, and the sequence from seed `s + RNG_INC` is the sequence from `s` without its first draw. -/
def Obligations.GeneratorPeriodIsFull : Prop :=
  ∀ P : Params, P.Legal →
    (∀ a b : Word, ∃ m < 2 ^ 32, stateAfter P m a = b) ∧
    (∀ (a : Word) (m : Nat), stateAfter P m a = a ↔ 2 ^ 32 ∣ m) ∧
    (∀ (a : Word) (m : Nat), 1 ≤ m → drawNumber P (m + 2 ^ 32) a = drawNumber P m a) ∧
    (∀ (a : Word) (m : Nat), 1 ≤ m → drawNumber P m (a + P.rngInc) = drawNumber P (m + 1) a)

/-! ### The permutation generator (43_permutation.md) -/

/-- 43_permutation.md R151 (and the order of 20_memory.md R77): the shuffle is the fold of the iterations `i = n-1` down
to 1 over the identity sequence, each taking one draw and swapping positions `i` and `floor(U x (i+1) / 2^32)`. -/
def Obligations.ShuffleIsTheDescendingFisherYates : Prop :=
  ∀ (P : Params) (n : Nat) (seed : Word), n ≤ 1048576 →
    fy P n seed = ((List.range' 1 (n - 1)).reverse).foldl
      (fun (x : List Nat × Word) (i : Nat) =>
        let a := x.2 + P.rngInc
        let j := (P.rngOut a).toNat * (i + 1) / 2 ^ 32
        ((x.1.set i (x.1[j]?.getD 0)).set j (x.1[i]?.getD 0), a))
      (List.range n, seed)

/-- 43_permutation.md R154: the index is the floor of `(U / 2^32) x (i+1)` over the rationals, it is at most `i`, and its
two corners. -/
def Obligations.ShuffleIndexIsTheExactFloor : Prop :=
  ∀ (u : Word) (i : Nat),
    ((mulhi u (i + 1) : Nat) : Int) = ⌊((u.toNat : ℚ) / 2 ^ 32) * ((i : ℚ) + 1)⌋ ∧ mulhi u (i + 1) ≤ i ∧
    (u = 0 → mulhi u (i + 1) = 0) ∧ (u = 0xFFFFFFFF → i + 1 ≤ 1048576 → mulhi u (i + 1) = i)

/-- 43_permutation.md R158: for every parameter set, `n` and seed, the shuffle is a permutation of `[0, n)`; and after a
successful `PG.SHUF` PERM holds each value of `[0, NPIX)` exactly once. -/
def Obligations.ShuffleIsAPermutation : Prop :=
  (∀ (P : Params) (n : Nat) (seed : Word), (fy P n seed).1.Perm (List.range n)) ∧
  (∀ s t : State, s.err = 0 → exec .pgShuf s = .next t → t.err = 0 → PermValid t) ∧
  (∀ (P : Params) (s t : State), s.err = 0 → execFor P .pgShuf s = .next t → t.err = 0 → PermValid t)

/-- 43_permutation.md R152: `PG.SHUF`, word 0x30000000, with `n <= NMAX` writes the shuffle to PERM, `n` to `NPIX`, the
last state word to `A0`, sets `RV0` and `PV`, and changes nothing else; with `n` > `NMAX` it raises `RANGE` and
writes nothing else. In the modelled block and with every parameter set. -/
def Obligations.PgShufStoresTheShuffle : Prop :=
  encode .pgShuf = 0x30000000 ∧ ∀ s : State, s.err = 0 →
    (s.arg0.toNat ≤ 1048576 → ∃ t, exec .pgShuf s = .next t ∧
      t = { s with perm := t.perm, npix := s.arg0, a0 := (fy params s.arg0.toNat s.arg1).2, rv0 := true, pv := true } ∧
      (∀ q < s.arg0.toNat, (fy params s.arg0.toNat s.arg1).1[q]? = some (permRead t q).toNat)) ∧
    (1048576 < s.arg0.toNat → exec .pgShuf s = .next { s with err := 4, errcmd := 0x30000000 }) ∧
    (∀ P : Params,
      (s.arg0.toNat ≤ 1048576 → ∃ t, execFor P .pgShuf s = .next t ∧
        t = { s with perm := t.perm, npix := s.arg0, a0 := (fy P s.arg0.toNat s.arg1).2, rv0 := true, pv := true } ∧
        (∀ q < s.arg0.toNat, (fy P s.arg0.toNat s.arg1).1[q]? = some (permRead t q).toNat)) ∧
      (1048576 < s.arg0.toNat → execFor P .pgShuf s = .next { s with err := 4, errcmd := 0x30000000 }))

/-- The generator after a shuffle, 43_permutation.md section 3 (R155): the shuffle takes exactly `n-1` draws, and `PG.SHUF`
leaves `A0` there; with every parameter set, and in the modelled block. -/
def Obligations.GeneratorAfterAShuffle : Prop :=
  (∀ (P : Params) (n : Nat) (seed : Word),
    (fy P n seed).2 = BitVec.ofNat 32 (seed.toNat + (n - 1) * P.rngInc.toNat)) ∧
  (∀ (P : Params) (ex : Execution) (s t : State), ex = execFor P ∨ P = params ∧ ex = exec → s.err = 0 →
    ex .pgShuf s = .next t → t.err = 0 →
    t.a0 = BitVec.ofNat 32 (s.arg1.toNat + (s.arg0.toNat - 1) * P.rngInc.toNat))

/-- 43_permutation.md R156: `n` = 0 and `n` = 1 are legal and take no draw; after `n` = 0 every `PG.RD`, `PX.EMB` and
`PX.EXT` raises `INDEX`; after `n` = 1 entry 0 is 0. -/
def Obligations.ShuffleOfZeroAndOne : Prop :=
  ∀ s : State, s.err = 0 →
    (s.arg0 = 0 → ∃ t, exec .pgShuf s = .next t ∧
      t = { s with npix := 0, a0 := s.arg1, rv0 := true, pv := true } ∧
      (∀ (x : Word) (i : Instr),
        (i = .pgRd ∨ (∃ ch p bit, i = .pxEmb ch (profileCode p) bit) ∨ ∃ ch p, i = .pxExt ch (profileCode p)) →
        ∃ u, exec i { t with arg0 := x } = .next u ∧ u.err = 6)) ∧
    (s.arg0 = 1 → ∃ t, exec .pgShuf s = .next t ∧
      t = { s with perm := t.perm, npix := 1, a0 := s.arg1, rv0 := true, pv := true } ∧ permRead t 0 = 0)

/-- 43_permutation.md R159: PERM[0..n), `NPIX` and `A0` after `PG.SHUF` depend on `n`, the seed and the parameters only;
with every parameter set, and in the modelled block. -/
def Obligations.ShuffleIsDeterminedByNAndSeed : Prop :=
  ∀ (P : Params) (ex : Execution) (s s' t t' : State), ex = execFor P ∨ P = params ∧ ex = exec →
    s.err = 0 → s'.err = 0 → s.arg0 = s'.arg0 → s.arg1 = s'.arg1 → ex .pgShuf s = .next t →
    ex .pgShuf s' = .next t' → t.err = 0 →
    t'.err = 0 ∧ t.npix = t'.npix ∧ t.a0 = t'.a0 ∧ ∀ q < s.arg0.toNat, permRead t q = permRead t' q

/-- 43_permutation.md R153: `PG.RD`, word 0x31000000; an entry is zero-extended into `RES`, nothing else changes; without
a valid permutation `NOPERM`, at or above `NPIX` `INDEX`. -/
def Obligations.PgRdReadsAnEntry : Prop :=
  encode .pgRd = 0x31000000 ∧ ∀ s : State, s.err = 0 →
    (s.pv = true → s.arg0.toNat < s.npix.toNat → ∃ v : Word, v.toNat = (permRead s s.arg0.toNat).toNat ∧
      exec .pgRd s = .next { s with res := v }) ∧
    (s.pv = false → exec .pgRd s = .next { s with err := 5, errcmd := 0x31000000 }) ∧
    (s.pv = true → s.npix.toNat ≤ s.arg0.toNat → exec .pgRd s = .next { s with err := 6, errcmd := 0x31000000 })

/-! ### The channel codec (44_channel_codec.md) -/

/-- 44_channel_codec.md R174 with R171: `CC.EMB` under each profile, word 0x40000000 + (prof << 16) + bit; nothing but
`RES` changes; the word with `PROF` = 3 is `ILLCMD`. -/
def Obligations.CcEmbEmbedsInTheOperandByte : Prop :=
  (∀ (prof : BitVec 2) (bit : Bool),
    (encode (.ccEmb prof bit)).toNat = 0x40000000 + prof.toNat * 2 ^ 16 + (if bit then 1 else 0)) ∧
  ∀ (bit : Bool) (s : State) (b : Byte), s.err = 0 → b.toNat = s.arg0.toNat % 256 →
    exec (.ccEmb 0 bit) s = .next { s with res := ((b &&& 0xFE) ||| (if bit then 1 else 0)).setWidth 32 } ∧
    exec (.ccEmb 1 bit) s = .next { s with res := if bit then 255 else 254 } ∧
    exec (.ccEmb 2 bit) s = .next { s with res := if bit then 255 else 0 } ∧
    issueWord (encode (.ccEmb 3 bit)) s = .next { s with err := 1, errcmd := encode (.ccEmb 3 bit) }

/-- 44_channel_codec.md R175 with R172: `CC.EXT` under each profile, word 0x41000000 + (prof << 16); nothing but `RES`
changes; the word with `PROF` = 3 is `ILLCMD`. -/
def Obligations.CcExtExtractsFromTheOperandByte : Prop :=
  (∀ prof : BitVec 2, (encode (.ccExt prof)).toNat = 0x41000000 + prof.toNat * 2 ^ 16) ∧
  ∀ (s : State) (b : Byte), s.err = 0 → b.toNat = s.arg0.toNat % 256 →
    exec (.ccExt 0) s = .next { s with res := BitVec.ofNat 32 (b.toNat % 2) } ∧
    exec (.ccExt 1) s = .next { s with res := if b = 255 then 1 else 0 } ∧
    exec (.ccExt 2) s = .next { s with res := if b = 255 then 1 else 0 } ∧
    issueWord (encode (.ccExt 3)) s = .next { s with err := 1, errcmd := encode (.ccExt 3) }

/-- The laws of 44_channel_codec.md section 3 (R176, R177, R178): within a profile extraction inverts embedding; an LSB-parity reader recovers what
any profile wrote, Sentinel and Full-value read each other, and a Sentinel reader recovers an LSB-parity 1 only
from the bytes 254 and 255; embedding is idempotent; LSB-parity changes a byte by at most 1. -/
def Obligations.CodecLaws : Prop :=
  ∀ (p : Profile) (b : Byte) (bit : Bool),
    extractBit p (embedBit p b bit) = bit ∧
    extractBit .lsb (embedBit p b bit) = bit ∧
    extractBit .sentinel (embedBit .fullValue b bit) = bit ∧ extractBit .fullValue (embedBit .sentinel b bit) = bit ∧
    (extractBit .sentinel (embedBit .lsb b true) = true ↔ b = 254 ∨ b = 255) ∧
    embedBit p (embedBit p b bit) bit = embedBit p b bit ∧
    (b.getLsbD 0 = bit → embedBit .lsb b bit = b) ∧
    ((embedBit .lsb b bit).toNat ≤ b.toNat + 1 ∧ b.toNat ≤ (embedBit .lsb b bit).toNat + 1)

/-! ### Canvas commands (45_canvas.md) -/

/-- 45_canvas.md R192: `PX.EMB`, word 0x48000000 + (ch << 20) + (prof << 16) + bit, writes one byte, at
`4*PERM[ARG0] + ch`, which is the embedding of the bit in the old byte, puts it in `RES` too, and changes nothing
else; the errors, each with CANVAS and `RES` unchanged. -/
def Obligations.PxEmbEmbedsInTheSelectedByte : Prop :=
  (∀ (ch : Channel) (prof : BitVec 2) (bit : Bool), (encode (.pxEmb ch prof bit)).toNat =
    0x48000000 + (channelCode ch).toNat * 2 ^ 20 + prof.toNat * 2 ^ 16 + (if bit then 1 else 0)) ∧
  (∀ (ch : Channel) (p : Profile) (bit : Bool) (s : State) (a : Nat) (new : Byte), s.err = 0 → s.pv = true →
    s.arg0.toNat < s.npix.toNat → a = 4 * (permRead s s.arg0.toNat).toNat + (channelCode ch).toNat →
    new = embedBit p (memRead s a) bit →
    ∃ t, exec (.pxEmb ch (profileCode p) bit) s = .next t ∧
      t = { s with canvas := t.canvas, res := new.setWidth 32 } ∧ memRead t a = new ∧
      (∀ b, b ≠ a → memRead t b = memRead s b)) ∧
  (∀ (ch : Channel) (p : Profile) (bit : Bool) (s : State) (w : Word), s.err = 0 →
    w = encode (.pxEmb ch (profileCode p) bit) →
    (s.pv = false → exec (.pxEmb ch (profileCode p) bit) s = .next { s with err := 5, errcmd := w }) ∧
    (s.pv = true → s.npix.toNat ≤ s.arg0.toNat →
      exec (.pxEmb ch (profileCode p) bit) s = .next { s with err := 6, errcmd := w })) ∧
  (∀ (ch : Channel) (bit : Bool) (s : State) (w : Word), s.err = 0 → w = encode (.pxEmb ch 3 bit) →
    issueWord w s = .next { s with err := 1, errcmd := w })

/-- 45_canvas.md R193: `PX.EXT`, word 0x49000000 + (ch << 20) + (prof << 16), puts the bit of the selected byte in `RES`
and changes nothing else; the errors. -/
def Obligations.PxExtExtractsFromTheSelectedByte : Prop :=
  (∀ (ch : Channel) (prof : BitVec 2),
    (encode (.pxExt ch prof)).toNat = 0x49000000 + (channelCode ch).toNat * 2 ^ 20 + prof.toNat * 2 ^ 16) ∧
  (∀ (ch : Channel) (p : Profile) (s : State) (a : Nat), s.err = 0 → s.pv = true → s.arg0.toNat < s.npix.toNat →
    a = 4 * (permRead s s.arg0.toNat).toNat + (channelCode ch).toNat →
    exec (.pxExt ch (profileCode p)) s = .next { s with res := if extractBit p (memRead s a) then 1 else 0 }) ∧
  (∀ (ch : Channel) (p : Profile) (s : State) (w : Word), s.err = 0 → w = encode (.pxExt ch (profileCode p)) →
    (s.pv = false → exec (.pxExt ch (profileCode p)) s = .next { s with err := 5, errcmd := w }) ∧
    (s.pv = true → s.npix.toNat ≤ s.arg0.toNat →
      exec (.pxExt ch (profileCode p)) s = .next { s with err := 6, errcmd := w })) ∧
  (∀ (ch : Channel) (s : State) (w : Word), s.err = 0 → w = encode (.pxExt ch 3) →
    issueWord w s = .next { s with err := 1, errcmd := w })

/-- The address a `PX.*` command uses belongs to a pixel below `NPIX` and is inside CANVAS (20_memory.md section 1, R62;
45_canvas.md section 1, R191), in every state that meets the invariants. -/
def Obligations.SelectedAddressIsInsideCanvas : Prop :=
  ∀ (s : State) (ch : Channel), Inv s → s.pv = true → s.arg0.toNat < s.npix.toNat →
    (permRead s s.arg0.toNat).toNat < s.npix.toNat ∧
    4 * (permRead s s.arg0.toNat).toNat + (channelCode ch).toNat < 4 * s.npix.toNat ∧
    selectedAddr ch s = 4 * (permRead s s.arg0.toNat).toNat + (channelCode ch).toNat ∧ selectedAddr ch s < 4194304

/-- 45_canvas.md R194: `CV.WR d`, word 0x50000000 + d, writes the byte at `ARG0` and changes nothing else; outside CANVAS
it raises `ADDR`. -/
def Obligations.CvWrWritesAByte : Prop :=
  (∀ d : Byte, (encode (.cvWr d)).toNat = 0x50000000 + d.toNat) ∧ ∀ (d : Byte) (s : State), s.err = 0 →
    (s.arg0.toNat < 4194304 → ∃ t, exec (.cvWr d) s = .next t ∧ t = { s with canvas := t.canvas } ∧
      memRead t s.arg0.toNat = d ∧ ∀ b, b ≠ s.arg0.toNat → memRead t b = memRead s b) ∧
    (4194304 ≤ s.arg0.toNat → exec (.cvWr d) s = .next { s with err := 7, errcmd := encode (.cvWr d) })

/-- 45_canvas.md R195: `CV.RD`, word 0x51000000, puts the byte at `ARG0`, zero-extended, in `RES` and changes nothing
else; outside CANVAS it raises `ADDR`. -/
def Obligations.CvRdReadsAByte : Prop :=
  encode .cvRd = 0x51000000 ∧ ∀ s : State, s.err = 0 →
    (s.arg0.toNat < 4194304 → exec .cvRd s = .next { s with res := (memRead s s.arg0.toNat).setWidth 32 }) ∧
    (4194304 ≤ s.arg0.toNat → exec .cvRd s = .next { s with err := 7, errcmd := 0x51000000 })

/-- The law of 45_canvas.md section 3 (R196): `WR ARG0, i; PX.EMB ch, prof, bit; PX.EXT ch, prof` leaves `RES` = `bit`, also with other
`PX.EMB` commands at positions other than `i` between the two. -/
def Obligations.EmbedThenExtractReturnsTheBit : Prop :=
  ∀ (ch : Channel) (p : Profile) (i : Word) (bit : Bool) (others : List (Channel × Profile × Word × Bool)) (s : State),
    Inv s → s.err = 0 → s.pv = true → i.toNat < s.npix.toNat →
    (∀ o ∈ others, o.2.2.1 ≠ i ∧ o.2.2.1.toNat < s.npix.toNat) →
    ∃ t, runProg (thenProg (embedPseudo ch p i bit)
        (thenProg (forEach others (fun o => embedPseudo o.1 o.2.1 o.2.2.1 o.2.2.2)) (extractPseudo ch p i))) s =
      .next (if bit then 1 else 0, t)

/-- The law of 20_memory.md section 5 (R75): at two different positions `PX.EMB` writes different bytes, the two orders give the same CANVAS, and
`PX.EXT` at one returns the same before and after `PX.EMB` at the other. -/
def Obligations.EmbedsAtDifferentPositionsCommute : Prop :=
  ∀ (ch ch' : Channel) (p p' : Profile) (i i' : Word) (bit bit' : Bool) (s : State), Inv s → DataForm s → s.err = 0 →
    s.pv = true → i.toNat < s.npix.toNat → i'.toNat < s.npix.toNat → i ≠ i' →
    permRead s i.toNat ≠ permRead s i'.toNat ∧
    pixelAddr (permRead s i.toNat).toNat ch ≠ pixelAddr (permRead s i'.toNat).toNat ch' ∧
    (∃ t t', runProg (thenProg (embedPseudo ch p i bit) (embedPseudo ch' p' i' bit')) s = .next ((), t) ∧
      runProg (thenProg (embedPseudo ch' p' i' bit') (embedPseudo ch p i bit)) s = .next ((), t') ∧
      t.canvas = t'.canvas) ∧
    (∃ v u u', runProg (extractPseudo ch' p' i') s = .next (v, u) ∧
      runProg (thenProg (embedPseudo ch p i bit) (extractPseudo ch' p' i')) s = .next (v, u'))

/-- A byte written with `CV.WR` is read back by `CV.RD` at the same address, also after writes at other addresses
(45_canvas.md R197, its first sentence). -/
def Obligations.PokeThenPeekReturnsTheByte : Prop :=
  ∀ (a : Word) (d : Byte) (others : List (Word × Byte)) (s : State), s.err = 0 → a.toNat < 4194304 →
    (∀ o ∈ others, o.1 ≠ a ∧ o.1.toNat < 4194304) →
    ∃ t, runProg (thenProg (poke a d) (thenProg (forEach others (fun o => poke o.1 o.2)) (peek a))) s = .next (d, t)

/-! ### Whole-machine rules -/

/-- The column "written by" of the register map (10_state.md section 2, R21) and the flags' rules (section 8, R37 to R40):
what no command but those named changes; `ERR` and `ERRCMD` change by error entry only, from `ERR` = 0. -/
def Obligations.OnlyTheNamedCommandsWriteEachRegister : Prop :=
  ∀ (i : Instr) (s t : State), exec i s = .next t → i ≠ .clr →
    (t.arg0 = s.arg0 ∧ t.arg1 = s.arg1) ∧
    (i ≠ .clrErr → t.err = s.err ∧ t.errcmd = s.errcmd ∨ s.err = 0 ∧ t.err ≠ 0) ∧
    (i ≠ .pgShuf → t.npix = s.npix ∧ t.pv = s.pv) ∧
    (i ≠ .kdInit → (∀ k, i ≠ .kdAbs k) → t.klen = s.klen ∧ t.h = s.h) ∧
    (i ≠ .kdFin → t.seed = s.seed) ∧
    (i ≠ .kdInit → i ≠ .kdFin → t.kda = s.kda ∧ t.seedv = s.seedv) ∧
    (i ≠ .rngSeed .g0 → i ≠ .rngNext .g0 → i ≠ .pgShuf → t.a0 = s.a0) ∧
    (i ≠ .rngSeed .g0 → i ≠ .pgShuf → t.rv0 = s.rv0) ∧
    (i ≠ .rngSeed .g1 → i ≠ .rngNext .g1 → t.a1 = s.a1) ∧
    (i ≠ .rngSeed .g1 → t.rv1 = s.rv1) ∧
    ((∀ g, i ≠ .rngNext g) → i ≠ .pgRd → (∀ p b, i ≠ .ccEmb p b) → (∀ p, i ≠ .ccExt p) → (∀ c p b, i ≠ .pxEmb c p b) →
      (∀ c p, i ≠ .pxExt c p) → i ≠ .cvRd → t.res = s.res)

/-- Every command but `PX.EMB` and `CV.WR` leaves CANVAS alone, `CLR` too (10_state.md section 10, R44; 20_memory.md
section 5, R76); every command but `PG.SHUF` leaves PERM alone (10_state.md section 10, R43), and `PG.SHUF` leaves
the entries at and above `n` alone (log 11); no command touches the model's own fields. -/
def Obligations.OnlyTheNamedCommandsWriteTheMemories : Prop :=
  ∀ (i : Instr) (s t : State), exec i s = .next t →
    ((∀ c p b, i ≠ .pxEmb c p b) → (∀ d, i ≠ .cvWr d) → t.canvas = s.canvas) ∧
    (i ≠ .pgShuf → t.perm = s.perm) ∧ (∀ q, s.arg0.toNat ≤ q → permRead t q = permRead s q) ∧
    t.epoch = s.epoch ∧ t.inputs = s.inputs ∧ t.reply = s.reply

/-- The independence of 42_rng.md section 3 (R138): what a command on one generator does to the other, and what the other's contents can change: nothing.
`PG.SHUF` touches generator 0 only. -/
def Obligations.GeneratorsAreIndependent : Prop :=
  (∀ (s t : State) (i : Instr), exec i s = .next t →
    (i = .rngSeed .g0 ∨ i = .rngNext .g0 ∨ i = .pgShuf → t.a1 = s.a1 ∧ t.rv1 = s.rv1) ∧
    (i = .rngSeed .g1 ∨ i = .rngNext .g1 → t.a0 = s.a0 ∧ t.rv0 = s.rv0)) ∧
  (∀ (s t u : State) (x : Word) (b : Bool) (i : Instr), i = .rngSeed .g1 ∨ i = .rngNext .g1 → exec i s = .next t →
    exec i { s with a0 := x, rv0 := b } = .next u → u = { t with a0 := x, rv0 := b }) ∧
  (∀ (s t u : State) (x : Word) (b : Bool) (i : Instr), i = .rngSeed .g0 ∨ i = .rngNext .g0 ∨ i = .pgShuf →
    exec i s = .next t → exec i { s with a1 := x, rv1 := b } = .next u → u = { t with a1 := x, rv1 := b })

/-- The commands the spec calls idempotent in their rules (40_system.md R100, R101, R102; 41_key_derivation.md R112;
42_rng.md R132; 43_permutation.md R152, R153; 44_channel_codec.md R174, R175; 45_canvas.md R192, R193, R194, R195):
executed a second time they change nothing more. -/
def Obligations.IdempotentCommands : Prop :=
  ∀ (i : Instr) (s t : State), (∀ k, i ≠ .kdAbs k) → i ≠ .kdFin → (∀ g, i ≠ .rngNext g) → exec i s = .next t →
    exec i t = .next t

/-- Every command answers a next state, from every state: nothing in the block is stuck (70_reset_and_hazards.md R297). -/
def Obligations.EveryCommandTerminates : Prop :=
  ∀ (w : Word) (s : State), ∃ t, issueWord w s = .next t

/-! ### Invariants (10_state.md R48) -/

/-- The reset state meets the invariants of 10_state.md section 13 (R48) and the form of the model's two lists, which is
the model's choice (log 3, log 4). -/
def Obligations.ResetMeetsTheInvariants : Prop := Inv State.reset ∧ DataForm State.reset

/-- Every step, from every state, keeps the invariants (a) to (f) of 10_state.md section 13 (R48); in the modelled block,
and with every parameter set. -/
def Obligations.StepKeepsTheInvariants : Prop :=
  (∀ s t : State, Inv s → step s = .next t → Inv t) ∧
  (∀ (P : Params) (s t : State), Inv s → stepFor P s = .next t → Inv t)

/-- Every step keeps the form of the model's two lists: CANVAS's written bytes, addresses rising and inside CANVAS, and
PERM's written entries, no more than PERM has (10_state.md section 10, R43, R44, for the sizes). That the memories are
such lists is the model's choice (log 3, log 4). -/
def Obligations.StepKeepsTheDataForm : Prop :=
  ∀ s t : State, DataForm s → step s = .next t → DataForm t

/-! ### The reference host driver (46_host_driver.md), which the spec itself defines -/

/-- 46_host_driver.md R211 with R212: the bits of a frame. -/
def Obligations.FrameBits : Prop :=
  ∀ message : List CodeUnit, 1 ≤ message.length → message.length ≤ 65535 →
    (frame message).length = 16 + 8 * message.length ∧
    (∀ t < 16, (frame message)[t]? = some (message.length.testBit (15 - t))) ∧
    (∀ (q : Nat) (c : CodeUnit), message[q]? = some c → ∀ b < 8,
      (frame message)[16 + 8 * q + b]? = some ((c.toNat % 256).testBit (7 - b)))

/-- 46_host_driver.md R215: `unframe` inverts `frame` for codes up to 255, and gives the low 8 bits of greater ones. -/
def Obligations.UnframeInvertsFrame : Prop :=
  ∀ (message : List CodeUnit) (bit : Nat → Nat) (n : Nat), message.length ≤ 65535 → frameBitCount message.length ≤ n →
    (∀ t (b : Bool), (frame message)[t]? = some b → bit t = if b then 1 else 0) →
    unframe bit n = .ok (message.map (fun c => BitVec.ofNat 16 (c.toNat % 256))) ∧
    ((∀ c ∈ message, c.toNat ≤ 255) → unframe bit n = .ok message)

/-- 46_host_driver.md R234: what Encode puts into a canvas, Decode with the same password and configuration takes out,
for messages the checks accept with codes up to 255, from any two states outside error-stop, or in it where the
driver starts with `CLR`; and neither run ends in error-stop; on the modelled block, and on the block with any
parameter set. That whether the driver issues the optional `CLR` before and after a call is two fields of its
configuration is the model's choice (log 15). -/
def Obligations.DecodeOfEncodeIsTheMessage : Prop :=
  ∀ (st : State → Host.Outcome State Fault Refusal) (cfg cfg' : DriverConfig) (c : Canvas)
    (password message : List CodeUnit) (s s' : State), st = step ∨ (∃ P, st = stepFor P) →
    s.err = 0 ∨ cfg.clearBefore = true → s'.err = 0 ∨ cfg'.clearBefore = true → cfg'.ch = cfg.ch →
    cfg'.prof = cfg.prof → checkEncode c password message = none → (∀ k ∈ message, k.toNat ≤ 255) →
    ∃ c' t t', runProgBy st (encodeCanvas cfg c password message) s = .next (.ok c', t) ∧ t.err = 0 ∧
      runProgBy st (decodeCanvas cfg' c' password) s' = .next (.ok message, t') ∧ t'.err = 0
end

