-- ==== Sys2Proof/Laws/Decode.lean ====
section
/-! SUPPORT. The fields of a command word and the word of given fields are inverse, and the field codes read back. -/

namespace Sys2Proof

theorem splitWord_joinWord (f : Fields) : splitWord (joinWord f) = f := by
  rcases f with ⟨opc, z1, ch, z0, prof, imm⟩
  simp only [splitWord, joinWord, Fields.mk.injEq]
  refine ⟨?_, ?_, ?_, ?_, ?_, ?_⟩ <;>
    (apply BitVec.eq_of_getLsbD_eq
     intro i hi
     simp only [BitVec.getLsbD_extractLsb', BitVec.getLsbD_append]
     interval_cases i <;> simp)

theorem joinWord_splitWord (w : Word) : joinWord (splitWord w) = w := by
  simp only [splitWord, joinWord]
  apply BitVec.eq_of_getLsbD_eq
  intro i hi
  simp only [BitVec.getLsbD_append, BitVec.getLsbD_extractLsb']
  interval_cases i <;> simp

@[simp] theorem splitWord_encode (i : Instr) : splitWord (encode i) = encodeFields i :=
  splitWord_joinWord _

theorem decode_joinWord (f : Fields) : decode (joinWord f) = decodeFields f := by
  rw [decode, splitWord_joinWord]

@[simp] theorem channelOf_channelCode (ch : Channel) : channelOf (channelCode ch) = ch := by cases ch <;> rfl

theorem channelCode_channelOf (v : BitVec 2) : channelCode (channelOf v) = v := by revert v; decide

@[simp] theorem genOf_genCode (g : Gen) : genOf (genCode g) = some g := by cases g <;> rfl

theorem genCode_of_genOf {v : BitVec 2} {g : Gen} (h : genOf v = some g) : genCode g = v := by
  revert v g; decide

@[simp] theorem profileOf_profileCode (p : Profile) : profileOf (profileCode p) = some p := by cases p <;> rfl

theorem profileOf_eq_none (v : BitVec 2) : profileOf v = none ↔ v = 3 := by revert v; decide

theorem profLegal_eq_isSome (v : BitVec 2) : profLegal v = (profileOf v).isSome := by
  revert v; decide

@[simp] theorem bitCode_getLsbD (bit : Bool) : (bitCode bit).getLsbD 0 = bit := by cases bit <;> rfl

theorem bitCode_injective {b b' : Bool} (h : bitCode b = bitCode b') : b = b' := by
  revert b b'; decide

theorem Fields.bare_iff (f : Fields) :
    f.bare = true ↔ f.z1 = 0 ∧ f.ch = 0 ∧ f.z0 = 0 ∧ f.prof = 0 ∧ f.imm = 0 := by
  simp [Fields.bare, and_assoc]

theorem orStray_eq_cmd {ok : Bool} {i j : Instr} : orStray ok i = .cmd j ↔ ok = true ∧ i = j := by
  cases ok <;> simp [orStray]

theorem orReserved_eq_cmd {ok : Bool} {prof : BitVec 2} {i j : Instr} :
    orReserved ok prof i = .cmd j ↔ ok = true ∧ profLegal prof = true ∧ i = j := by
  cases ok <;> cases h : profLegal prof <;> simp [orReserved, h]

theorem withGen_eq_cmd {ok : Bool} {g : Option Gen} {i : Gen → Instr} {j : Instr} :
    withGen ok g i = .cmd j ↔ ok = true ∧ ∃ g', g = some g' ∧ i g' = j := by
  cases g <;> simp [withGen, orStray_eq_cmd]

/-- A byte zero-extended to 16 bits reads back, with zeros above. -/
theorem setWidth_byte (d : Byte) :
    (d.setWidth 16).extractLsb' 0 8 = d ∧ (d.setWidth 16).extractLsb' 8 8 = 0 := by
  constructor <;> (apply BitVec.eq_of_getLsbD_eq; intro i hi; simp [hi] <;> omega)

/-- Sixteen bits with zeros in the high byte are their low byte zero-extended. -/
theorem setWidth_low_byte {v : BitVec 16} (h : v.extractLsb' 8 8 = 0) : (v.extractLsb' 0 8).setWidth 16 = v := by
  apply BitVec.eq_of_getLsbD_eq
  intro i hi
  by_cases h8 : i < 8
  · simp [h8, hi]
  · have := congrArg (fun x => x.getLsbD (i - 8)) h
    simp only [BitVec.getLsbD_extractLsb'] at this
    have h2 : 8 + (i - 8) = i := by omega
    rw [h2] at this
    have h3 : i - 8 < 8 := by omega
    simp [h3] at this
    rw [BitVec.getLsbD_eq_getElem hi] at this
    simp [h8, hi, this]

/-- Two sets of fields, bit by bit. -/
def Fields.and (f g : Fields) : Fields :=
  ⟨f.opc &&& g.opc, f.z1 &&& g.z1, f.ch &&& g.ch, f.z0 &&& g.z0, f.prof &&& g.prof, f.imm &&& g.imm⟩

theorem splitWord_and (w m : Word) : splitWord (w &&& m) = (splitWord w).and (splitWord m) := by
  simp only [splitWord, Fields.and, Fields.mk.injEq]
  refine ⟨?_, ?_, ?_, ?_, ?_, ?_⟩ <;>
    (apply BitVec.eq_of_getLsbD_eq; intro i hi; simp [hi])

/-- A word has a pattern under a mask exactly when each of its fields has the pattern's field under the mask's. -/
theorem and_eq_iff_fields (w m p : Word) : w &&& m = p ↔ (splitWord w).and (splitWord m) = splitWord p := by
  rw [← splitWord_and]
  exact ⟨fun h => by rw [h], fun h => by rw [← joinWord_splitWord (w &&& m), h, joinWord_splitWord]⟩

/-- Under a mask of ones nothing is free. -/
theorem and_ones8 (v : BitVec 8) : v &&& 0xFF = v := BitVec.and_allOnes (x := v)

theorem and_ones2 (v : BitVec 2) : v &&& 3 = v := BitVec.and_allOnes (x := v)

theorem and_ones16 (v : BitVec 16) : v &&& 0xFFFF = v := BitVec.and_allOnes (x := v)

/-- Under the mask 2 of the field `PROF` only the generator bit is free. -/
theorem and_two_iff (v : BitVec 2) : v &&& 2 = 0 ↔ (genOf v).isSome = true := by revert v; decide

/-- Under the mask 0xFFFE only bit 0 is free. -/
theorem and_fffe_iff (v : BitVec 16) : v &&& 0xFFFE = 0 ↔ v = bitCode (v.getLsbD 0) := by
  constructor
  · intro h
    apply BitVec.eq_of_getLsbD_eq
    intro i hi
    by_cases h0 : i = 0
    · subst h0; exact (bitCode_getLsbD _).symm
    · have := congrArg (fun x => x.getLsbD i) h
      simp only [BitVec.getLsbD_and] at this
      have h1 : (0xFFFE#16).getLsbD i = true := by interval_cases i <;> first | rfl | contradiction
      have h2 : (bitCode (v.getLsbD 0)).getLsbD i = false := by
        cases v.getLsbD 0 <;> (interval_cases i <;> first | rfl | contradiction)
      simp only [BitVec.ofNat_eq_ofNat] at this
      rw [h1] at this
      rw [h2]
      simpa using this
  · intro h
    rw [h]
    cases v.getLsbD 0 <;> decide

/-- Under the mask 0xFF00 the low byte is free. -/
theorem and_ff00_iff (v : BitVec 16) : v &&& 0xFF00 = 0 ↔ v.extractLsb' 8 8 = 0 := by
  constructor
  · intro h
    apply BitVec.eq_of_getLsbD_eq
    intro i hi
    have := congrArg (fun x => x.getLsbD (8 + i)) h
    simp only [BitVec.getLsbD_and, BitVec.ofNat_eq_ofNat] at this
    have h1 : (0xFF00#16).getLsbD (8 + i) = true := by interval_cases i <;> rfl
    rw [h1] at this
    simpa [hi] using this
  · intro h
    rw [← setWidth_low_byte h]
    apply BitVec.eq_of_getLsbD_eq
    intro i hi
    by_cases h8 : i < 8
    · have h1 : (0xFF00#16).getLsbD i = false := by interval_cases i <;> rfl
      simp only [BitVec.getLsbD_and, BitVec.ofNat_eq_ofNat, h1]
      simp
    · simp [h8, hi]

/-- The word of given fields as a number. -/
theorem joinWord_toNat (f : Fields) : (joinWord f).toNat =
    f.opc.toNat * 2 ^ 24 + f.z1.toNat * 2 ^ 22 + f.ch.toNat * 2 ^ 20 + f.z0.toNat * 2 ^ 18 + f.prof.toNat * 2 ^ 16 +
      f.imm.toNat := by
  have h1 := f.z1.isLt
  have h2 := f.ch.isLt
  have h3 := f.z0.isLt
  have h4 := f.prof.isLt
  have h5 := f.imm.isLt
  simp only [joinWord, BitVec.toNat_append]
  rw [← Nat.shiftLeft_add_eq_or_of_lt h5, ← Nat.shiftLeft_add_eq_or_of_lt h4, ← Nat.shiftLeft_add_eq_or_of_lt h3,
    ← Nat.shiftLeft_add_eq_or_of_lt h2, ← Nat.shiftLeft_add_eq_or_of_lt h1]
  simp only [Nat.shiftLeft_eq]
  omega

end Sys2Proof
end

