-- ==== Sys2Proof/Laws/State.lean ====
section
/-! SUPPORT. The fields of a state after each named update: one lemma for each field and update, so that no later proof
unfolds a record update. Each is true by rfl, written (rfl) so that simp rewrites with it and leaves the kernel no
comparison of whole states (whose words hold large literals) to make. -/

namespace Sys2Proof.Machine

/-! ### raiseErr: error entry -/

@[simp] theorem raiseErr_err (c : ErrCode) (w : Word) (s : State) : (raiseErr c w s).err = errCode c := (rfl)
@[simp] theorem raiseErr_errcmd (c : ErrCode) (w : Word) (s : State) : (raiseErr c w s).errcmd = w := (rfl)
@[simp] theorem raiseErr_arg0 (c : ErrCode) (w : Word) (s : State) : (raiseErr c w s).arg0 = s.arg0 := (rfl)
@[simp] theorem raiseErr_arg1 (c : ErrCode) (w : Word) (s : State) : (raiseErr c w s).arg1 = s.arg1 := (rfl)
@[simp] theorem raiseErr_res (c : ErrCode) (w : Word) (s : State) : (raiseErr c w s).res = s.res := (rfl)
@[simp] theorem raiseErr_npix (c : ErrCode) (w : Word) (s : State) : (raiseErr c w s).npix = s.npix := (rfl)
@[simp] theorem raiseErr_klen (c : ErrCode) (w : Word) (s : State) : (raiseErr c w s).klen = s.klen := (rfl)
@[simp] theorem raiseErr_h (c : ErrCode) (w : Word) (s : State) : (raiseErr c w s).h = s.h := (rfl)
@[simp] theorem raiseErr_seed (c : ErrCode) (w : Word) (s : State) : (raiseErr c w s).seed = s.seed := (rfl)
@[simp] theorem raiseErr_a0 (c : ErrCode) (w : Word) (s : State) : (raiseErr c w s).a0 = s.a0 := (rfl)
@[simp] theorem raiseErr_a1 (c : ErrCode) (w : Word) (s : State) : (raiseErr c w s).a1 = s.a1 := (rfl)
@[simp] theorem raiseErr_kda (c : ErrCode) (w : Word) (s : State) : (raiseErr c w s).kda = s.kda := (rfl)
@[simp] theorem raiseErr_seedv (c : ErrCode) (w : Word) (s : State) : (raiseErr c w s).seedv = s.seedv := (rfl)
@[simp] theorem raiseErr_rv0 (c : ErrCode) (w : Word) (s : State) : (raiseErr c w s).rv0 = s.rv0 := (rfl)
@[simp] theorem raiseErr_rv1 (c : ErrCode) (w : Word) (s : State) : (raiseErr c w s).rv1 = s.rv1 := (rfl)
@[simp] theorem raiseErr_pv (c : ErrCode) (w : Word) (s : State) : (raiseErr c w s).pv = s.pv := (rfl)
@[simp] theorem raiseErr_perm (c : ErrCode) (w : Word) (s : State) : (raiseErr c w s).perm = s.perm := (rfl)
@[simp] theorem raiseErr_canvas (c : ErrCode) (w : Word) (s : State) : (raiseErr c w s).canvas = s.canvas := (rfl)
@[simp] theorem raiseErr_epoch (c : ErrCode) (w : Word) (s : State) : (raiseErr c w s).epoch = s.epoch := (rfl)
@[simp] theorem raiseErr_inputs (c : ErrCode) (w : Word) (s : State) : (raiseErr c w s).inputs = s.inputs := (rfl)
@[simp] theorem raiseErr_reply (c : ErrCode) (w : Word) (s : State) : (raiseErr c w s).reply = s.reply := (rfl)

/-! ### clearErr: the return from an error -/

@[simp] theorem clearErr_err (s : State) : (clearErr s).err = 0 := (rfl)
@[simp] theorem clearErr_errcmd (s : State) : (clearErr s).errcmd = 0 := (rfl)
@[simp] theorem clearErr_arg0 (s : State) : (clearErr s).arg0 = s.arg0 := (rfl)
@[simp] theorem clearErr_arg1 (s : State) : (clearErr s).arg1 = s.arg1 := (rfl)
@[simp] theorem clearErr_res (s : State) : (clearErr s).res = s.res := (rfl)
@[simp] theorem clearErr_npix (s : State) : (clearErr s).npix = s.npix := (rfl)
@[simp] theorem clearErr_klen (s : State) : (clearErr s).klen = s.klen := (rfl)
@[simp] theorem clearErr_h (s : State) : (clearErr s).h = s.h := (rfl)
@[simp] theorem clearErr_seed (s : State) : (clearErr s).seed = s.seed := (rfl)
@[simp] theorem clearErr_a0 (s : State) : (clearErr s).a0 = s.a0 := (rfl)
@[simp] theorem clearErr_a1 (s : State) : (clearErr s).a1 = s.a1 := (rfl)
@[simp] theorem clearErr_kda (s : State) : (clearErr s).kda = s.kda := (rfl)
@[simp] theorem clearErr_seedv (s : State) : (clearErr s).seedv = s.seedv := (rfl)
@[simp] theorem clearErr_rv0 (s : State) : (clearErr s).rv0 = s.rv0 := (rfl)
@[simp] theorem clearErr_rv1 (s : State) : (clearErr s).rv1 = s.rv1 := (rfl)
@[simp] theorem clearErr_pv (s : State) : (clearErr s).pv = s.pv := (rfl)
@[simp] theorem clearErr_perm (s : State) : (clearErr s).perm = s.perm := (rfl)
@[simp] theorem clearErr_canvas (s : State) : (clearErr s).canvas = s.canvas := (rfl)
@[simp] theorem clearErr_epoch (s : State) : (clearErr s).epoch = s.epoch := (rfl)
@[simp] theorem clearErr_inputs (s : State) : (clearErr s).inputs = s.inputs := (rfl)
@[simp] theorem clearErr_reply (s : State) : (clearErr s).reply = s.reply := (rfl)

/-! ### setRes: the result register -/

@[simp] theorem setRes_err (v : Word) (s : State) : (setRes v s).err = s.err := (rfl)
@[simp] theorem setRes_errcmd (v : Word) (s : State) : (setRes v s).errcmd = s.errcmd := (rfl)
@[simp] theorem setRes_arg0 (v : Word) (s : State) : (setRes v s).arg0 = s.arg0 := (rfl)
@[simp] theorem setRes_arg1 (v : Word) (s : State) : (setRes v s).arg1 = s.arg1 := (rfl)
@[simp] theorem setRes_res (v : Word) (s : State) : (setRes v s).res = v := (rfl)
@[simp] theorem setRes_npix (v : Word) (s : State) : (setRes v s).npix = s.npix := (rfl)
@[simp] theorem setRes_klen (v : Word) (s : State) : (setRes v s).klen = s.klen := (rfl)
@[simp] theorem setRes_h (v : Word) (s : State) : (setRes v s).h = s.h := (rfl)
@[simp] theorem setRes_seed (v : Word) (s : State) : (setRes v s).seed = s.seed := (rfl)
@[simp] theorem setRes_a0 (v : Word) (s : State) : (setRes v s).a0 = s.a0 := (rfl)
@[simp] theorem setRes_a1 (v : Word) (s : State) : (setRes v s).a1 = s.a1 := (rfl)
@[simp] theorem setRes_kda (v : Word) (s : State) : (setRes v s).kda = s.kda := (rfl)
@[simp] theorem setRes_seedv (v : Word) (s : State) : (setRes v s).seedv = s.seedv := (rfl)
@[simp] theorem setRes_rv0 (v : Word) (s : State) : (setRes v s).rv0 = s.rv0 := (rfl)
@[simp] theorem setRes_rv1 (v : Word) (s : State) : (setRes v s).rv1 = s.rv1 := (rfl)
@[simp] theorem setRes_pv (v : Word) (s : State) : (setRes v s).pv = s.pv := (rfl)
@[simp] theorem setRes_perm (v : Word) (s : State) : (setRes v s).perm = s.perm := (rfl)
@[simp] theorem setRes_canvas (v : Word) (s : State) : (setRes v s).canvas = s.canvas := (rfl)
@[simp] theorem setRes_epoch (v : Word) (s : State) : (setRes v s).epoch = s.epoch := (rfl)
@[simp] theorem setRes_inputs (v : Word) (s : State) : (setRes v s).inputs = s.inputs := (rfl)
@[simp] theorem setRes_reply (v : Word) (s : State) : (setRes v s).reply = s.reply := (rfl)

/-! ### setGen0: generator 0's state word -/

@[simp] theorem setGen0_err (v : Word) (s : State) : (setGenState .g0 v s).err = s.err := (rfl)
@[simp] theorem setGen0_errcmd (v : Word) (s : State) : (setGenState .g0 v s).errcmd = s.errcmd := (rfl)
@[simp] theorem setGen0_arg0 (v : Word) (s : State) : (setGenState .g0 v s).arg0 = s.arg0 := (rfl)
@[simp] theorem setGen0_arg1 (v : Word) (s : State) : (setGenState .g0 v s).arg1 = s.arg1 := (rfl)
@[simp] theorem setGen0_res (v : Word) (s : State) : (setGenState .g0 v s).res = s.res := (rfl)
@[simp] theorem setGen0_npix (v : Word) (s : State) : (setGenState .g0 v s).npix = s.npix := (rfl)
@[simp] theorem setGen0_klen (v : Word) (s : State) : (setGenState .g0 v s).klen = s.klen := (rfl)
@[simp] theorem setGen0_h (v : Word) (s : State) : (setGenState .g0 v s).h = s.h := (rfl)
@[simp] theorem setGen0_seed (v : Word) (s : State) : (setGenState .g0 v s).seed = s.seed := (rfl)
@[simp] theorem setGen0_a0 (v : Word) (s : State) : (setGenState .g0 v s).a0 = v := (rfl)
@[simp] theorem setGen0_a1 (v : Word) (s : State) : (setGenState .g0 v s).a1 = s.a1 := (rfl)
@[simp] theorem setGen0_kda (v : Word) (s : State) : (setGenState .g0 v s).kda = s.kda := (rfl)
@[simp] theorem setGen0_seedv (v : Word) (s : State) : (setGenState .g0 v s).seedv = s.seedv := (rfl)
@[simp] theorem setGen0_rv0 (v : Word) (s : State) : (setGenState .g0 v s).rv0 = s.rv0 := (rfl)
@[simp] theorem setGen0_rv1 (v : Word) (s : State) : (setGenState .g0 v s).rv1 = s.rv1 := (rfl)
@[simp] theorem setGen0_pv (v : Word) (s : State) : (setGenState .g0 v s).pv = s.pv := (rfl)
@[simp] theorem setGen0_perm (v : Word) (s : State) : (setGenState .g0 v s).perm = s.perm := (rfl)
@[simp] theorem setGen0_canvas (v : Word) (s : State) : (setGenState .g0 v s).canvas = s.canvas := (rfl)
@[simp] theorem setGen0_epoch (v : Word) (s : State) : (setGenState .g0 v s).epoch = s.epoch := (rfl)
@[simp] theorem setGen0_inputs (v : Word) (s : State) : (setGenState .g0 v s).inputs = s.inputs := (rfl)
@[simp] theorem setGen0_reply (v : Word) (s : State) : (setGenState .g0 v s).reply = s.reply := (rfl)

/-! ### setGen1: generator 1's state word -/

@[simp] theorem setGen1_err (v : Word) (s : State) : (setGenState .g1 v s).err = s.err := (rfl)
@[simp] theorem setGen1_errcmd (v : Word) (s : State) : (setGenState .g1 v s).errcmd = s.errcmd := (rfl)
@[simp] theorem setGen1_arg0 (v : Word) (s : State) : (setGenState .g1 v s).arg0 = s.arg0 := (rfl)
@[simp] theorem setGen1_arg1 (v : Word) (s : State) : (setGenState .g1 v s).arg1 = s.arg1 := (rfl)
@[simp] theorem setGen1_res (v : Word) (s : State) : (setGenState .g1 v s).res = s.res := (rfl)
@[simp] theorem setGen1_npix (v : Word) (s : State) : (setGenState .g1 v s).npix = s.npix := (rfl)
@[simp] theorem setGen1_klen (v : Word) (s : State) : (setGenState .g1 v s).klen = s.klen := (rfl)
@[simp] theorem setGen1_h (v : Word) (s : State) : (setGenState .g1 v s).h = s.h := (rfl)
@[simp] theorem setGen1_seed (v : Word) (s : State) : (setGenState .g1 v s).seed = s.seed := (rfl)
@[simp] theorem setGen1_a0 (v : Word) (s : State) : (setGenState .g1 v s).a0 = s.a0 := (rfl)
@[simp] theorem setGen1_a1 (v : Word) (s : State) : (setGenState .g1 v s).a1 = v := (rfl)
@[simp] theorem setGen1_kda (v : Word) (s : State) : (setGenState .g1 v s).kda = s.kda := (rfl)
@[simp] theorem setGen1_seedv (v : Word) (s : State) : (setGenState .g1 v s).seedv = s.seedv := (rfl)
@[simp] theorem setGen1_rv0 (v : Word) (s : State) : (setGenState .g1 v s).rv0 = s.rv0 := (rfl)
@[simp] theorem setGen1_rv1 (v : Word) (s : State) : (setGenState .g1 v s).rv1 = s.rv1 := (rfl)
@[simp] theorem setGen1_pv (v : Word) (s : State) : (setGenState .g1 v s).pv = s.pv := (rfl)
@[simp] theorem setGen1_perm (v : Word) (s : State) : (setGenState .g1 v s).perm = s.perm := (rfl)
@[simp] theorem setGen1_canvas (v : Word) (s : State) : (setGenState .g1 v s).canvas = s.canvas := (rfl)
@[simp] theorem setGen1_epoch (v : Word) (s : State) : (setGenState .g1 v s).epoch = s.epoch := (rfl)
@[simp] theorem setGen1_inputs (v : Word) (s : State) : (setGenState .g1 v s).inputs = s.inputs := (rfl)
@[simp] theorem setGen1_reply (v : Word) (s : State) : (setGenState .g1 v s).reply = s.reply := (rfl)

/-! ### markSeeded0: generator 0's flag -/

@[simp] theorem markSeeded0_err (s : State) : (markSeeded .g0 s).err = s.err := (rfl)
@[simp] theorem markSeeded0_errcmd (s : State) : (markSeeded .g0 s).errcmd = s.errcmd := (rfl)
@[simp] theorem markSeeded0_arg0 (s : State) : (markSeeded .g0 s).arg0 = s.arg0 := (rfl)
@[simp] theorem markSeeded0_arg1 (s : State) : (markSeeded .g0 s).arg1 = s.arg1 := (rfl)
@[simp] theorem markSeeded0_res (s : State) : (markSeeded .g0 s).res = s.res := (rfl)
@[simp] theorem markSeeded0_npix (s : State) : (markSeeded .g0 s).npix = s.npix := (rfl)
@[simp] theorem markSeeded0_klen (s : State) : (markSeeded .g0 s).klen = s.klen := (rfl)
@[simp] theorem markSeeded0_h (s : State) : (markSeeded .g0 s).h = s.h := (rfl)
@[simp] theorem markSeeded0_seed (s : State) : (markSeeded .g0 s).seed = s.seed := (rfl)
@[simp] theorem markSeeded0_a0 (s : State) : (markSeeded .g0 s).a0 = s.a0 := (rfl)
@[simp] theorem markSeeded0_a1 (s : State) : (markSeeded .g0 s).a1 = s.a1 := (rfl)
@[simp] theorem markSeeded0_kda (s : State) : (markSeeded .g0 s).kda = s.kda := (rfl)
@[simp] theorem markSeeded0_seedv (s : State) : (markSeeded .g0 s).seedv = s.seedv := (rfl)
@[simp] theorem markSeeded0_rv0 (s : State) : (markSeeded .g0 s).rv0 = true := (rfl)
@[simp] theorem markSeeded0_rv1 (s : State) : (markSeeded .g0 s).rv1 = s.rv1 := (rfl)
@[simp] theorem markSeeded0_pv (s : State) : (markSeeded .g0 s).pv = s.pv := (rfl)
@[simp] theorem markSeeded0_perm (s : State) : (markSeeded .g0 s).perm = s.perm := (rfl)
@[simp] theorem markSeeded0_canvas (s : State) : (markSeeded .g0 s).canvas = s.canvas := (rfl)
@[simp] theorem markSeeded0_epoch (s : State) : (markSeeded .g0 s).epoch = s.epoch := (rfl)
@[simp] theorem markSeeded0_inputs (s : State) : (markSeeded .g0 s).inputs = s.inputs := (rfl)
@[simp] theorem markSeeded0_reply (s : State) : (markSeeded .g0 s).reply = s.reply := (rfl)

/-! ### markSeeded1: generator 1's flag -/

@[simp] theorem markSeeded1_err (s : State) : (markSeeded .g1 s).err = s.err := (rfl)
@[simp] theorem markSeeded1_errcmd (s : State) : (markSeeded .g1 s).errcmd = s.errcmd := (rfl)
@[simp] theorem markSeeded1_arg0 (s : State) : (markSeeded .g1 s).arg0 = s.arg0 := (rfl)
@[simp] theorem markSeeded1_arg1 (s : State) : (markSeeded .g1 s).arg1 = s.arg1 := (rfl)
@[simp] theorem markSeeded1_res (s : State) : (markSeeded .g1 s).res = s.res := (rfl)
@[simp] theorem markSeeded1_npix (s : State) : (markSeeded .g1 s).npix = s.npix := (rfl)
@[simp] theorem markSeeded1_klen (s : State) : (markSeeded .g1 s).klen = s.klen := (rfl)
@[simp] theorem markSeeded1_h (s : State) : (markSeeded .g1 s).h = s.h := (rfl)
@[simp] theorem markSeeded1_seed (s : State) : (markSeeded .g1 s).seed = s.seed := (rfl)
@[simp] theorem markSeeded1_a0 (s : State) : (markSeeded .g1 s).a0 = s.a0 := (rfl)
@[simp] theorem markSeeded1_a1 (s : State) : (markSeeded .g1 s).a1 = s.a1 := (rfl)
@[simp] theorem markSeeded1_kda (s : State) : (markSeeded .g1 s).kda = s.kda := (rfl)
@[simp] theorem markSeeded1_seedv (s : State) : (markSeeded .g1 s).seedv = s.seedv := (rfl)
@[simp] theorem markSeeded1_rv0 (s : State) : (markSeeded .g1 s).rv0 = s.rv0 := (rfl)
@[simp] theorem markSeeded1_rv1 (s : State) : (markSeeded .g1 s).rv1 = true := (rfl)
@[simp] theorem markSeeded1_pv (s : State) : (markSeeded .g1 s).pv = s.pv := (rfl)
@[simp] theorem markSeeded1_perm (s : State) : (markSeeded .g1 s).perm = s.perm := (rfl)
@[simp] theorem markSeeded1_canvas (s : State) : (markSeeded .g1 s).canvas = s.canvas := (rfl)
@[simp] theorem markSeeded1_epoch (s : State) : (markSeeded .g1 s).epoch = s.epoch := (rfl)
@[simp] theorem markSeeded1_inputs (s : State) : (markSeeded .g1 s).inputs = s.inputs := (rfl)
@[simp] theorem markSeeded1_reply (s : State) : (markSeeded .g1 s).reply = s.reply := (rfl)

/-! ### memWrite: a canvas byte -/

@[simp] theorem memWrite_err (a : Nat) (b : Byte) (s : State) : (memWrite a b s).err = s.err := (rfl)
@[simp] theorem memWrite_errcmd (a : Nat) (b : Byte) (s : State) : (memWrite a b s).errcmd = s.errcmd := (rfl)
@[simp] theorem memWrite_arg0 (a : Nat) (b : Byte) (s : State) : (memWrite a b s).arg0 = s.arg0 := (rfl)
@[simp] theorem memWrite_arg1 (a : Nat) (b : Byte) (s : State) : (memWrite a b s).arg1 = s.arg1 := (rfl)
@[simp] theorem memWrite_res (a : Nat) (b : Byte) (s : State) : (memWrite a b s).res = s.res := (rfl)
@[simp] theorem memWrite_npix (a : Nat) (b : Byte) (s : State) : (memWrite a b s).npix = s.npix := (rfl)
@[simp] theorem memWrite_klen (a : Nat) (b : Byte) (s : State) : (memWrite a b s).klen = s.klen := (rfl)
@[simp] theorem memWrite_h (a : Nat) (b : Byte) (s : State) : (memWrite a b s).h = s.h := (rfl)
@[simp] theorem memWrite_seed (a : Nat) (b : Byte) (s : State) : (memWrite a b s).seed = s.seed := (rfl)
@[simp] theorem memWrite_a0 (a : Nat) (b : Byte) (s : State) : (memWrite a b s).a0 = s.a0 := (rfl)
@[simp] theorem memWrite_a1 (a : Nat) (b : Byte) (s : State) : (memWrite a b s).a1 = s.a1 := (rfl)
@[simp] theorem memWrite_kda (a : Nat) (b : Byte) (s : State) : (memWrite a b s).kda = s.kda := (rfl)
@[simp] theorem memWrite_seedv (a : Nat) (b : Byte) (s : State) : (memWrite a b s).seedv = s.seedv := (rfl)
@[simp] theorem memWrite_rv0 (a : Nat) (b : Byte) (s : State) : (memWrite a b s).rv0 = s.rv0 := (rfl)
@[simp] theorem memWrite_rv1 (a : Nat) (b : Byte) (s : State) : (memWrite a b s).rv1 = s.rv1 := (rfl)
@[simp] theorem memWrite_pv (a : Nat) (b : Byte) (s : State) : (memWrite a b s).pv = s.pv := (rfl)
@[simp] theorem memWrite_perm (a : Nat) (b : Byte) (s : State) : (memWrite a b s).perm = s.perm := (rfl)
@[simp] theorem memWrite_canvas (a : Nat) (b : Byte) (s : State) : (memWrite a b s).canvas = storeCell a b s.canvas := (rfl)
@[simp] theorem memWrite_epoch (a : Nat) (b : Byte) (s : State) : (memWrite a b s).epoch = s.epoch := (rfl)
@[simp] theorem memWrite_inputs (a : Nat) (b : Byte) (s : State) : (memWrite a b s).inputs = s.inputs := (rfl)
@[simp] theorem memWrite_reply (a : Nat) (b : Byte) (s : State) : (memWrite a b s).reply = s.reply := (rfl)

/-! ### permWrite: the permutation memory -/

@[simp] theorem permWrite_err (p : List Nat) (s : State) : (permWrite p s).err = s.err := (rfl)
@[simp] theorem permWrite_errcmd (p : List Nat) (s : State) : (permWrite p s).errcmd = s.errcmd := (rfl)
@[simp] theorem permWrite_arg0 (p : List Nat) (s : State) : (permWrite p s).arg0 = s.arg0 := (rfl)
@[simp] theorem permWrite_arg1 (p : List Nat) (s : State) : (permWrite p s).arg1 = s.arg1 := (rfl)
@[simp] theorem permWrite_res (p : List Nat) (s : State) : (permWrite p s).res = s.res := (rfl)
@[simp] theorem permWrite_npix (p : List Nat) (s : State) : (permWrite p s).npix = s.npix := (rfl)
@[simp] theorem permWrite_klen (p : List Nat) (s : State) : (permWrite p s).klen = s.klen := (rfl)
@[simp] theorem permWrite_h (p : List Nat) (s : State) : (permWrite p s).h = s.h := (rfl)
@[simp] theorem permWrite_seed (p : List Nat) (s : State) : (permWrite p s).seed = s.seed := (rfl)
@[simp] theorem permWrite_a0 (p : List Nat) (s : State) : (permWrite p s).a0 = s.a0 := (rfl)
@[simp] theorem permWrite_a1 (p : List Nat) (s : State) : (permWrite p s).a1 = s.a1 := (rfl)
@[simp] theorem permWrite_kda (p : List Nat) (s : State) : (permWrite p s).kda = s.kda := (rfl)
@[simp] theorem permWrite_seedv (p : List Nat) (s : State) : (permWrite p s).seedv = s.seedv := (rfl)
@[simp] theorem permWrite_rv0 (p : List Nat) (s : State) : (permWrite p s).rv0 = s.rv0 := (rfl)
@[simp] theorem permWrite_rv1 (p : List Nat) (s : State) : (permWrite p s).rv1 = s.rv1 := (rfl)
@[simp] theorem permWrite_pv (p : List Nat) (s : State) : (permWrite p s).pv = s.pv := (rfl)
@[simp] theorem permWrite_perm (p : List Nat) (s : State) : (permWrite p s).perm = p.map (BitVec.ofNat 20) ++ s.perm.drop p.length := (rfl)
@[simp] theorem permWrite_canvas (p : List Nat) (s : State) : (permWrite p s).canvas = s.canvas := (rfl)
@[simp] theorem permWrite_epoch (p : List Nat) (s : State) : (permWrite p s).epoch = s.epoch := (rfl)
@[simp] theorem permWrite_inputs (p : List Nat) (s : State) : (permWrite p s).inputs = s.inputs := (rfl)
@[simp] theorem permWrite_reply (p : List Nat) (s : State) : (permWrite p s).reply = s.reply := (rfl)

/-! ### softReset: CLR -/

@[simp] theorem softReset_err (s : State) : (softReset s).err = 0 := (rfl)
@[simp] theorem softReset_errcmd (s : State) : (softReset s).errcmd = 0 := (rfl)
@[simp] theorem softReset_arg0 (s : State) : (softReset s).arg0 = 0 := (rfl)
@[simp] theorem softReset_arg1 (s : State) : (softReset s).arg1 = 0 := (rfl)
@[simp] theorem softReset_res (s : State) : (softReset s).res = 0 := (rfl)
@[simp] theorem softReset_npix (s : State) : (softReset s).npix = 0 := (rfl)
@[simp] theorem softReset_klen (s : State) : (softReset s).klen = 0 := (rfl)
@[simp] theorem softReset_h (s : State) : (softReset s).h = ⟨0, 0, 0, 0⟩ := (rfl)
@[simp] theorem softReset_seed (s : State) : (softReset s).seed = ⟨0, 0, 0, 0⟩ := (rfl)
@[simp] theorem softReset_a0 (s : State) : (softReset s).a0 = 0 := (rfl)
@[simp] theorem softReset_a1 (s : State) : (softReset s).a1 = 0 := (rfl)
@[simp] theorem softReset_kda (s : State) : (softReset s).kda = false := (rfl)
@[simp] theorem softReset_seedv (s : State) : (softReset s).seedv = false := (rfl)
@[simp] theorem softReset_rv0 (s : State) : (softReset s).rv0 = false := (rfl)
@[simp] theorem softReset_rv1 (s : State) : (softReset s).rv1 = false := (rfl)
@[simp] theorem softReset_pv (s : State) : (softReset s).pv = false := (rfl)
@[simp] theorem softReset_perm (s : State) : (softReset s).perm = s.perm := (rfl)
@[simp] theorem softReset_canvas (s : State) : (softReset s).canvas = s.canvas := (rfl)
@[simp] theorem softReset_epoch (s : State) : (softReset s).epoch = s.epoch := (rfl)
@[simp] theorem softReset_inputs (s : State) : (softReset s).inputs = s.inputs := (rfl)
@[simp] theorem softReset_reply (s : State) : (softReset s).reply = s.reply := (rfl)

/-! ### kdOpen: KD.INIT -/

@[simp] theorem kdOpen_err (P : Params) (s : State) : (kdOpen P s).err = s.err := (rfl)
@[simp] theorem kdOpen_errcmd (P : Params) (s : State) : (kdOpen P s).errcmd = s.errcmd := (rfl)
@[simp] theorem kdOpen_arg0 (P : Params) (s : State) : (kdOpen P s).arg0 = s.arg0 := (rfl)
@[simp] theorem kdOpen_arg1 (P : Params) (s : State) : (kdOpen P s).arg1 = s.arg1 := (rfl)
@[simp] theorem kdOpen_res (P : Params) (s : State) : (kdOpen P s).res = s.res := (rfl)
@[simp] theorem kdOpen_npix (P : Params) (s : State) : (kdOpen P s).npix = s.npix := (rfl)
@[simp] theorem kdOpen_klen (P : Params) (s : State) : (kdOpen P s).klen = 0 := (rfl)
@[simp] theorem kdOpen_h (P : Params) (s : State) : (kdOpen P s).h = P.kdInit := (rfl)
@[simp] theorem kdOpen_seed (P : Params) (s : State) : (kdOpen P s).seed = s.seed := (rfl)
@[simp] theorem kdOpen_a0 (P : Params) (s : State) : (kdOpen P s).a0 = s.a0 := (rfl)
@[simp] theorem kdOpen_a1 (P : Params) (s : State) : (kdOpen P s).a1 = s.a1 := (rfl)
@[simp] theorem kdOpen_kda (P : Params) (s : State) : (kdOpen P s).kda = true := (rfl)
@[simp] theorem kdOpen_seedv (P : Params) (s : State) : (kdOpen P s).seedv = false := (rfl)
@[simp] theorem kdOpen_rv0 (P : Params) (s : State) : (kdOpen P s).rv0 = s.rv0 := (rfl)
@[simp] theorem kdOpen_rv1 (P : Params) (s : State) : (kdOpen P s).rv1 = s.rv1 := (rfl)
@[simp] theorem kdOpen_pv (P : Params) (s : State) : (kdOpen P s).pv = s.pv := (rfl)
@[simp] theorem kdOpen_perm (P : Params) (s : State) : (kdOpen P s).perm = s.perm := (rfl)
@[simp] theorem kdOpen_canvas (P : Params) (s : State) : (kdOpen P s).canvas = s.canvas := (rfl)
@[simp] theorem kdOpen_epoch (P : Params) (s : State) : (kdOpen P s).epoch = s.epoch := (rfl)
@[simp] theorem kdOpen_inputs (P : Params) (s : State) : (kdOpen P s).inputs = s.inputs := (rfl)
@[simp] theorem kdOpen_reply (P : Params) (s : State) : (kdOpen P s).reply = s.reply := (rfl)

/-! ### kdAbsorb: KD.ABS -/

@[simp] theorem kdAbsorb_err (P : Params) (k : CodeUnit) (s : State) : (kdAbsorb P k s).err = s.err := (rfl)
@[simp] theorem kdAbsorb_errcmd (P : Params) (k : CodeUnit) (s : State) : (kdAbsorb P k s).errcmd = s.errcmd := (rfl)
@[simp] theorem kdAbsorb_arg0 (P : Params) (k : CodeUnit) (s : State) : (kdAbsorb P k s).arg0 = s.arg0 := (rfl)
@[simp] theorem kdAbsorb_arg1 (P : Params) (k : CodeUnit) (s : State) : (kdAbsorb P k s).arg1 = s.arg1 := (rfl)
@[simp] theorem kdAbsorb_res (P : Params) (k : CodeUnit) (s : State) : (kdAbsorb P k s).res = s.res := (rfl)
@[simp] theorem kdAbsorb_npix (P : Params) (k : CodeUnit) (s : State) : (kdAbsorb P k s).npix = s.npix := (rfl)
@[simp] theorem kdAbsorb_klen (P : Params) (k : CodeUnit) (s : State) : (kdAbsorb P k s).klen = s.klen + 1 := (rfl)
@[simp] theorem kdAbsorb_h (P : Params) (k : CodeUnit) (s : State) : (kdAbsorb P k s).h = kdRound P s.h k := (rfl)
@[simp] theorem kdAbsorb_seed (P : Params) (k : CodeUnit) (s : State) : (kdAbsorb P k s).seed = s.seed := (rfl)
@[simp] theorem kdAbsorb_a0 (P : Params) (k : CodeUnit) (s : State) : (kdAbsorb P k s).a0 = s.a0 := (rfl)
@[simp] theorem kdAbsorb_a1 (P : Params) (k : CodeUnit) (s : State) : (kdAbsorb P k s).a1 = s.a1 := (rfl)
@[simp] theorem kdAbsorb_kda (P : Params) (k : CodeUnit) (s : State) : (kdAbsorb P k s).kda = s.kda := (rfl)
@[simp] theorem kdAbsorb_seedv (P : Params) (k : CodeUnit) (s : State) : (kdAbsorb P k s).seedv = s.seedv := (rfl)
@[simp] theorem kdAbsorb_rv0 (P : Params) (k : CodeUnit) (s : State) : (kdAbsorb P k s).rv0 = s.rv0 := (rfl)
@[simp] theorem kdAbsorb_rv1 (P : Params) (k : CodeUnit) (s : State) : (kdAbsorb P k s).rv1 = s.rv1 := (rfl)
@[simp] theorem kdAbsorb_pv (P : Params) (k : CodeUnit) (s : State) : (kdAbsorb P k s).pv = s.pv := (rfl)
@[simp] theorem kdAbsorb_perm (P : Params) (k : CodeUnit) (s : State) : (kdAbsorb P k s).perm = s.perm := (rfl)
@[simp] theorem kdAbsorb_canvas (P : Params) (k : CodeUnit) (s : State) : (kdAbsorb P k s).canvas = s.canvas := (rfl)
@[simp] theorem kdAbsorb_epoch (P : Params) (k : CodeUnit) (s : State) : (kdAbsorb P k s).epoch = s.epoch := (rfl)
@[simp] theorem kdAbsorb_inputs (P : Params) (k : CodeUnit) (s : State) : (kdAbsorb P k s).inputs = s.inputs := (rfl)
@[simp] theorem kdAbsorb_reply (P : Params) (k : CodeUnit) (s : State) : (kdAbsorb P k s).reply = s.reply := (rfl)

/-! ### seedGen0: RNG.SEED 0 -/

@[simp] theorem seedGen0_err (s : State) : (seedGen .g0 s).err = s.err := (rfl)
@[simp] theorem seedGen0_errcmd (s : State) : (seedGen .g0 s).errcmd = s.errcmd := (rfl)
@[simp] theorem seedGen0_arg0 (s : State) : (seedGen .g0 s).arg0 = s.arg0 := (rfl)
@[simp] theorem seedGen0_arg1 (s : State) : (seedGen .g0 s).arg1 = s.arg1 := (rfl)
@[simp] theorem seedGen0_res (s : State) : (seedGen .g0 s).res = s.res := (rfl)
@[simp] theorem seedGen0_npix (s : State) : (seedGen .g0 s).npix = s.npix := (rfl)
@[simp] theorem seedGen0_klen (s : State) : (seedGen .g0 s).klen = s.klen := (rfl)
@[simp] theorem seedGen0_h (s : State) : (seedGen .g0 s).h = s.h := (rfl)
@[simp] theorem seedGen0_seed (s : State) : (seedGen .g0 s).seed = s.seed := (rfl)
@[simp] theorem seedGen0_a0 (s : State) : (seedGen .g0 s).a0 = s.arg0 := (rfl)
@[simp] theorem seedGen0_a1 (s : State) : (seedGen .g0 s).a1 = s.a1 := (rfl)
@[simp] theorem seedGen0_kda (s : State) : (seedGen .g0 s).kda = s.kda := (rfl)
@[simp] theorem seedGen0_seedv (s : State) : (seedGen .g0 s).seedv = s.seedv := (rfl)
@[simp] theorem seedGen0_rv0 (s : State) : (seedGen .g0 s).rv0 = true := (rfl)
@[simp] theorem seedGen0_rv1 (s : State) : (seedGen .g0 s).rv1 = s.rv1 := (rfl)
@[simp] theorem seedGen0_pv (s : State) : (seedGen .g0 s).pv = s.pv := (rfl)
@[simp] theorem seedGen0_perm (s : State) : (seedGen .g0 s).perm = s.perm := (rfl)
@[simp] theorem seedGen0_canvas (s : State) : (seedGen .g0 s).canvas = s.canvas := (rfl)
@[simp] theorem seedGen0_epoch (s : State) : (seedGen .g0 s).epoch = s.epoch := (rfl)
@[simp] theorem seedGen0_inputs (s : State) : (seedGen .g0 s).inputs = s.inputs := (rfl)
@[simp] theorem seedGen0_reply (s : State) : (seedGen .g0 s).reply = s.reply := (rfl)

/-! ### seedGen1: RNG.SEED 1 -/

@[simp] theorem seedGen1_err (s : State) : (seedGen .g1 s).err = s.err := (rfl)
@[simp] theorem seedGen1_errcmd (s : State) : (seedGen .g1 s).errcmd = s.errcmd := (rfl)
@[simp] theorem seedGen1_arg0 (s : State) : (seedGen .g1 s).arg0 = s.arg0 := (rfl)
@[simp] theorem seedGen1_arg1 (s : State) : (seedGen .g1 s).arg1 = s.arg1 := (rfl)
@[simp] theorem seedGen1_res (s : State) : (seedGen .g1 s).res = s.res := (rfl)
@[simp] theorem seedGen1_npix (s : State) : (seedGen .g1 s).npix = s.npix := (rfl)
@[simp] theorem seedGen1_klen (s : State) : (seedGen .g1 s).klen = s.klen := (rfl)
@[simp] theorem seedGen1_h (s : State) : (seedGen .g1 s).h = s.h := (rfl)
@[simp] theorem seedGen1_seed (s : State) : (seedGen .g1 s).seed = s.seed := (rfl)
@[simp] theorem seedGen1_a0 (s : State) : (seedGen .g1 s).a0 = s.a0 := (rfl)
@[simp] theorem seedGen1_a1 (s : State) : (seedGen .g1 s).a1 = s.arg0 := (rfl)
@[simp] theorem seedGen1_kda (s : State) : (seedGen .g1 s).kda = s.kda := (rfl)
@[simp] theorem seedGen1_seedv (s : State) : (seedGen .g1 s).seedv = s.seedv := (rfl)
@[simp] theorem seedGen1_rv0 (s : State) : (seedGen .g1 s).rv0 = s.rv0 := (rfl)
@[simp] theorem seedGen1_rv1 (s : State) : (seedGen .g1 s).rv1 = true := (rfl)
@[simp] theorem seedGen1_pv (s : State) : (seedGen .g1 s).pv = s.pv := (rfl)
@[simp] theorem seedGen1_perm (s : State) : (seedGen .g1 s).perm = s.perm := (rfl)
@[simp] theorem seedGen1_canvas (s : State) : (seedGen .g1 s).canvas = s.canvas := (rfl)
@[simp] theorem seedGen1_epoch (s : State) : (seedGen .g1 s).epoch = s.epoch := (rfl)
@[simp] theorem seedGen1_inputs (s : State) : (seedGen .g1 s).inputs = s.inputs := (rfl)
@[simp] theorem seedGen1_reply (s : State) : (seedGen .g1 s).reply = s.reply := (rfl)

/-! ### drawGen0: RNG.NEXT 0 -/

@[simp] theorem drawGen0_err (P : Params) (s : State) : (drawGen P .g0 s).err = s.err := by simp [drawGen, genState]
@[simp] theorem drawGen0_errcmd (P : Params) (s : State) : (drawGen P .g0 s).errcmd = s.errcmd := by simp [drawGen, genState]
@[simp] theorem drawGen0_arg0 (P : Params) (s : State) : (drawGen P .g0 s).arg0 = s.arg0 := by simp [drawGen, genState]
@[simp] theorem drawGen0_arg1 (P : Params) (s : State) : (drawGen P .g0 s).arg1 = s.arg1 := by simp [drawGen, genState]
@[simp] theorem drawGen0_res (P : Params) (s : State) : (drawGen P .g0 s).res = (rngStep P s.a0).2 := by simp [drawGen, genState]
@[simp] theorem drawGen0_npix (P : Params) (s : State) : (drawGen P .g0 s).npix = s.npix := by simp [drawGen, genState]
@[simp] theorem drawGen0_klen (P : Params) (s : State) : (drawGen P .g0 s).klen = s.klen := by simp [drawGen, genState]
@[simp] theorem drawGen0_h (P : Params) (s : State) : (drawGen P .g0 s).h = s.h := by simp [drawGen, genState]
@[simp] theorem drawGen0_seed (P : Params) (s : State) : (drawGen P .g0 s).seed = s.seed := by simp [drawGen, genState]
@[simp] theorem drawGen0_a0 (P : Params) (s : State) : (drawGen P .g0 s).a0 = (rngStep P s.a0).1 := by simp [drawGen, genState]
@[simp] theorem drawGen0_a1 (P : Params) (s : State) : (drawGen P .g0 s).a1 = s.a1 := by simp [drawGen, genState]
@[simp] theorem drawGen0_kda (P : Params) (s : State) : (drawGen P .g0 s).kda = s.kda := by simp [drawGen, genState]
@[simp] theorem drawGen0_seedv (P : Params) (s : State) : (drawGen P .g0 s).seedv = s.seedv := by simp [drawGen, genState]
@[simp] theorem drawGen0_rv0 (P : Params) (s : State) : (drawGen P .g0 s).rv0 = s.rv0 := by simp [drawGen, genState]
@[simp] theorem drawGen0_rv1 (P : Params) (s : State) : (drawGen P .g0 s).rv1 = s.rv1 := by simp [drawGen, genState]
@[simp] theorem drawGen0_pv (P : Params) (s : State) : (drawGen P .g0 s).pv = s.pv := by simp [drawGen, genState]
@[simp] theorem drawGen0_perm (P : Params) (s : State) : (drawGen P .g0 s).perm = s.perm := by simp [drawGen, genState]
@[simp] theorem drawGen0_canvas (P : Params) (s : State) : (drawGen P .g0 s).canvas = s.canvas := by simp [drawGen, genState]
@[simp] theorem drawGen0_epoch (P : Params) (s : State) : (drawGen P .g0 s).epoch = s.epoch := by simp [drawGen, genState]
@[simp] theorem drawGen0_inputs (P : Params) (s : State) : (drawGen P .g0 s).inputs = s.inputs := by simp [drawGen, genState]
@[simp] theorem drawGen0_reply (P : Params) (s : State) : (drawGen P .g0 s).reply = s.reply := by simp [drawGen, genState]

/-! ### drawGen1: RNG.NEXT 1 -/

@[simp] theorem drawGen1_err (P : Params) (s : State) : (drawGen P .g1 s).err = s.err := by simp [drawGen, genState]
@[simp] theorem drawGen1_errcmd (P : Params) (s : State) : (drawGen P .g1 s).errcmd = s.errcmd := by simp [drawGen, genState]
@[simp] theorem drawGen1_arg0 (P : Params) (s : State) : (drawGen P .g1 s).arg0 = s.arg0 := by simp [drawGen, genState]
@[simp] theorem drawGen1_arg1 (P : Params) (s : State) : (drawGen P .g1 s).arg1 = s.arg1 := by simp [drawGen, genState]
@[simp] theorem drawGen1_res (P : Params) (s : State) : (drawGen P .g1 s).res = (rngStep P s.a1).2 := by simp [drawGen, genState]
@[simp] theorem drawGen1_npix (P : Params) (s : State) : (drawGen P .g1 s).npix = s.npix := by simp [drawGen, genState]
@[simp] theorem drawGen1_klen (P : Params) (s : State) : (drawGen P .g1 s).klen = s.klen := by simp [drawGen, genState]
@[simp] theorem drawGen1_h (P : Params) (s : State) : (drawGen P .g1 s).h = s.h := by simp [drawGen, genState]
@[simp] theorem drawGen1_seed (P : Params) (s : State) : (drawGen P .g1 s).seed = s.seed := by simp [drawGen, genState]
@[simp] theorem drawGen1_a0 (P : Params) (s : State) : (drawGen P .g1 s).a0 = s.a0 := by simp [drawGen, genState]
@[simp] theorem drawGen1_a1 (P : Params) (s : State) : (drawGen P .g1 s).a1 = (rngStep P s.a1).1 := by simp [drawGen, genState]
@[simp] theorem drawGen1_kda (P : Params) (s : State) : (drawGen P .g1 s).kda = s.kda := by simp [drawGen, genState]
@[simp] theorem drawGen1_seedv (P : Params) (s : State) : (drawGen P .g1 s).seedv = s.seedv := by simp [drawGen, genState]
@[simp] theorem drawGen1_rv0 (P : Params) (s : State) : (drawGen P .g1 s).rv0 = s.rv0 := by simp [drawGen, genState]
@[simp] theorem drawGen1_rv1 (P : Params) (s : State) : (drawGen P .g1 s).rv1 = s.rv1 := by simp [drawGen, genState]
@[simp] theorem drawGen1_pv (P : Params) (s : State) : (drawGen P .g1 s).pv = s.pv := by simp [drawGen, genState]
@[simp] theorem drawGen1_perm (P : Params) (s : State) : (drawGen P .g1 s).perm = s.perm := by simp [drawGen, genState]
@[simp] theorem drawGen1_canvas (P : Params) (s : State) : (drawGen P .g1 s).canvas = s.canvas := by simp [drawGen, genState]
@[simp] theorem drawGen1_epoch (P : Params) (s : State) : (drawGen P .g1 s).epoch = s.epoch := by simp [drawGen, genState]
@[simp] theorem drawGen1_inputs (P : Params) (s : State) : (drawGen P .g1 s).inputs = s.inputs := by simp [drawGen, genState]
@[simp] theorem drawGen1_reply (P : Params) (s : State) : (drawGen P .g1 s).reply = s.reply := by simp [drawGen, genState]

/-! ### shuffle: PG.SHUF -/

@[simp] theorem shuffle_err (P : Params) (s : State) : (shuffle P s).err = s.err := by simp [shuffle]
@[simp] theorem shuffle_errcmd (P : Params) (s : State) : (shuffle P s).errcmd = s.errcmd := by simp [shuffle]
@[simp] theorem shuffle_arg0 (P : Params) (s : State) : (shuffle P s).arg0 = s.arg0 := by simp [shuffle]
@[simp] theorem shuffle_arg1 (P : Params) (s : State) : (shuffle P s).arg1 = s.arg1 := by simp [shuffle]
@[simp] theorem shuffle_res (P : Params) (s : State) : (shuffle P s).res = s.res := by simp [shuffle]
@[simp] theorem shuffle_npix (P : Params) (s : State) : (shuffle P s).npix = s.arg0 := by simp [shuffle]
@[simp] theorem shuffle_klen (P : Params) (s : State) : (shuffle P s).klen = s.klen := by simp [shuffle]
@[simp] theorem shuffle_h (P : Params) (s : State) : (shuffle P s).h = s.h := by simp [shuffle]
@[simp] theorem shuffle_seed (P : Params) (s : State) : (shuffle P s).seed = s.seed := by simp [shuffle]
@[simp] theorem shuffle_a0 (P : Params) (s : State) : (shuffle P s).a0 = (fy P (arg0Nat s) s.arg1).2 := by simp [shuffle]
@[simp] theorem shuffle_a1 (P : Params) (s : State) : (shuffle P s).a1 = s.a1 := by simp [shuffle]
@[simp] theorem shuffle_kda (P : Params) (s : State) : (shuffle P s).kda = s.kda := by simp [shuffle]
@[simp] theorem shuffle_seedv (P : Params) (s : State) : (shuffle P s).seedv = s.seedv := by simp [shuffle]
@[simp] theorem shuffle_rv0 (P : Params) (s : State) : (shuffle P s).rv0 = true := by simp [shuffle]
@[simp] theorem shuffle_rv1 (P : Params) (s : State) : (shuffle P s).rv1 = s.rv1 := by simp [shuffle]
@[simp] theorem shuffle_pv (P : Params) (s : State) : (shuffle P s).pv = true := by simp [shuffle]
@[simp] theorem shuffle_perm (P : Params) (s : State) : (shuffle P s).perm = (permWrite (fy P (arg0Nat s) s.arg1).1 s).perm := by simp [shuffle]
@[simp] theorem shuffle_canvas (P : Params) (s : State) : (shuffle P s).canvas = s.canvas := by simp [shuffle]
@[simp] theorem shuffle_epoch (P : Params) (s : State) : (shuffle P s).epoch = s.epoch := by simp [shuffle]
@[simp] theorem shuffle_inputs (P : Params) (s : State) : (shuffle P s).inputs = s.inputs := by simp [shuffle]
@[simp] theorem shuffle_reply (P : Params) (s : State) : (shuffle P s).reply = s.reply := by simp [shuffle]

/-! ### kdClose: KD.FIN -/

@[simp] theorem kdClose_err (P : Params) (s : State) : (kdClose P s).err = s.err := (rfl)
@[simp] theorem kdClose_errcmd (P : Params) (s : State) : (kdClose P s).errcmd = s.errcmd := (rfl)
@[simp] theorem kdClose_arg0 (P : Params) (s : State) : (kdClose P s).arg0 = s.arg0 := (rfl)
@[simp] theorem kdClose_arg1 (P : Params) (s : State) : (kdClose P s).arg1 = s.arg1 := (rfl)
@[simp] theorem kdClose_res (P : Params) (s : State) : (kdClose P s).res = s.res := (rfl)
@[simp] theorem kdClose_npix (P : Params) (s : State) : (kdClose P s).npix = s.npix := (rfl)
@[simp] theorem kdClose_klen (P : Params) (s : State) : (kdClose P s).klen = s.klen := (rfl)
@[simp] theorem kdClose_h (P : Params) (s : State) : (kdClose P s).h = s.h := (rfl)
@[simp] theorem kdClose_seed (P : Params) (s : State) : (kdClose P s).seed = P.kdFinalize s.h := (rfl)
@[simp] theorem kdClose_a0 (P : Params) (s : State) : (kdClose P s).a0 = s.a0 := (rfl)
@[simp] theorem kdClose_a1 (P : Params) (s : State) : (kdClose P s).a1 = s.a1 := (rfl)
@[simp] theorem kdClose_kda (P : Params) (s : State) : (kdClose P s).kda = false := (rfl)
@[simp] theorem kdClose_seedv (P : Params) (s : State) : (kdClose P s).seedv = true := (rfl)
@[simp] theorem kdClose_rv0 (P : Params) (s : State) : (kdClose P s).rv0 = s.rv0 := (rfl)
@[simp] theorem kdClose_rv1 (P : Params) (s : State) : (kdClose P s).rv1 = s.rv1 := (rfl)
@[simp] theorem kdClose_pv (P : Params) (s : State) : (kdClose P s).pv = s.pv := (rfl)
@[simp] theorem kdClose_perm (P : Params) (s : State) : (kdClose P s).perm = s.perm := (rfl)
@[simp] theorem kdClose_canvas (P : Params) (s : State) : (kdClose P s).canvas = s.canvas := (rfl)
@[simp] theorem kdClose_epoch (P : Params) (s : State) : (kdClose P s).epoch = s.epoch := (rfl)
@[simp] theorem kdClose_inputs (P : Params) (s : State) : (kdClose P s).inputs = s.inputs := (rfl)
@[simp] theorem kdClose_reply (P : Params) (s : State) : (kdClose P s).reply = s.reply := (rfl)

end Sys2Proof.Machine
end

