-- ==== Sys2Proof/Laws/Memory.lean ====
section
/-! SUPPORT. The laws of CANVAS's list of written bytes: reading after writing, the canonical form, and that equal
memories are equal lists. -/

namespace Sys2Proof.Machine

theorem lookupCell_storeCell_self (a : Nat) (b : Byte) (m : Memory) : lookupCell a (storeCell a b m) = some b := by
  induction m with
  | nil => simp [storeCell, lookupCell]
  | cons c m ih =>
    simp only [storeCell]
    split
    · simp [lookupCell]
    · split
      · simp [lookupCell]
      · rename_i h1 h2
        simp only [lookupCell, ih, ite_eq_right_iff]
        intro h
        exact absurd h.symm h2

theorem lookupCell_storeCell_other {a a' : Nat} (h : a' ≠ a) (b : Byte) (m : Memory) :
    lookupCell a' (storeCell a b m) = lookupCell a' m := by
  induction m with
  | nil => simp [storeCell, lookupCell, h.symm]
  | cons c m ih =>
    simp only [storeCell]
    split
    · simp [lookupCell, h.symm]
    · split
      · rename_i h2
        subst h2
        simp [lookupCell, h.symm]
      · simp [lookupCell, ih]

theorem mem_storeCell {a : Nat} {b : Byte} {m : Memory} {c : Host.Cell} (h : c ∈ storeCell a b m) :
    c = (a, b) ∨ c ∈ m := by
  induction m with
  | nil => simpa [storeCell] using h
  | cons d m ih =>
    simp only [storeCell] at h
    split at h
    · simpa using h
    · split at h
      · rcases List.mem_cons.1 h with h | h
        · exact .inl h
        · exact .inr (List.mem_cons_of_mem _ h)
      · rcases List.mem_cons.1 h with h | h
        · exact .inr (h ▸ List.mem_cons_self)
        · exact (ih h).imp id (List.mem_cons_of_mem _)

theorem storeCell_rising {a : Nat} {b : Byte} {m : Memory} (h : m.Pairwise (fun x y => x.1 < y.1)) :
    (storeCell a b m).Pairwise (fun x y => x.1 < y.1) := by
  induction m with
  | nil => simp [storeCell]
  | cons d m ih =>
    rw [List.pairwise_cons] at h
    simp only [storeCell]
    split
    · rename_i hlt
      refine List.pairwise_cons.2 ⟨?_, List.pairwise_cons.2 h⟩
      intro x hx
      rcases List.mem_cons.1 hx with rfl | hx
      · exact hlt
      · exact lt_trans hlt (h.1 x hx)
    · split
      · rename_i heq
        subst heq
        exact List.pairwise_cons.2 ⟨fun x hx => h.1 x hx, h.2⟩
      · refine List.pairwise_cons.2 ⟨?_, ih h.2⟩
        intro x hx
        rcases mem_storeCell hx with rfl | hx
        · simp only; omega
        · exact h.1 x hx

/-- A write inside CANVAS keeps the canonical form. -/
theorem storeCell_wf {a : Nat} {b : Byte} {m : Memory} (h : m.wf) (ha : a < Config.canvasBytes) :
    Memory.wf (storeCell a b m) := by
  refine ⟨storeCell_rising h.1, fun c hc => ?_⟩
  rcases mem_storeCell hc with rfl | hc
  · exact ha
  · exact h.2 c hc

theorem lookupCell_eq_none {m : Memory} {a : Nat} (h : ∀ c ∈ m, c.1 ≠ a) : lookupCell a m = none := by
  induction m with
  | nil => rfl
  | cons d m ih =>
    simp only [lookupCell, h d List.mem_cons_self, if_false]
    exact ih fun c hc => h c (List.mem_cons_of_mem _ hc)

/-- Two memories with rising addresses that agree at every address are the same list. -/
theorem memory_ext {m n : Memory} (hm : m.Pairwise (fun x y => x.1 < y.1)) (hn : n.Pairwise (fun x y => x.1 < y.1))
    (h : ∀ a, lookupCell a m = lookupCell a n) : m = n := by
  induction m generalizing n with
  | nil =>
    cases n with
    | nil => rfl
    | cons d n => simpa [lookupCell] using h d.1
  | cons c m ih =>
    cases n with
    | nil => simpa [lookupCell] using h c.1
    | cons d n =>
      rw [List.pairwise_cons] at hm hn
      have hcd : c.1 = d.1 := by
        rcases lt_trichotomy c.1 d.1 with hlt | heq | hgt
        · have := h c.1
          rw [lookupCell_eq_none (m := d :: n)] at this
          · simp [lookupCell] at this
          · intro x hx
            rcases List.mem_cons.1 hx with rfl | hx
            · omega
            · have := hn.1 x hx
              omega
        · exact heq
        · have := h d.1
          rw [lookupCell_eq_none (m := c :: m)] at this
          · simp [lookupCell] at this
          · intro x hx
            rcases List.mem_cons.1 hx with rfl | hx
            · omega
            · have := hm.1 x hx
              omega
      have hv : c.2 = d.2 := by simpa [lookupCell, hcd] using h c.1
      have htail : m = n := by
        refine ih hm.2 hn.2 fun a => ?_
        by_cases ha : c.1 = a
        · rw [lookupCell_eq_none, lookupCell_eq_none]
          · intro x hx
            have := hn.1 x hx
            omega
          · intro x hx
            have := hm.1 x hx
            omega
        · have := h a
          have hd : ¬ d.1 = a := hcd ▸ ha
          simpa [lookupCell, ha, hd] using this
      rw [htail, Prod.ext hcd hv]

/-- Writes to two addresses commute. -/
theorem storeCell_comm {a a' : Nat} (h : a ≠ a') (b b' : Byte) {m : Memory}
    (hm : m.Pairwise (fun x y => x.1 < y.1)) :
    storeCell a b (storeCell a' b' m) = storeCell a' b' (storeCell a b m) := by
  refine memory_ext (storeCell_rising (storeCell_rising hm)) (storeCell_rising (storeCell_rising hm)) fun c => ?_
  by_cases h1 : c = a
  · subst h1
    rw [lookupCell_storeCell_self, lookupCell_storeCell_other h, lookupCell_storeCell_self]
  · by_cases h2 : c = a'
    · subst h2
      rw [lookupCell_storeCell_other h1, lookupCell_storeCell_self, lookupCell_storeCell_self]
    · rw [lookupCell_storeCell_other h1, lookupCell_storeCell_other h2, lookupCell_storeCell_other h2,
        lookupCell_storeCell_other h1]

/-- A second write to the same address replaces the first. -/
theorem storeCell_storeCell (a : Nat) (b b' : Byte) (m : Memory) :
    storeCell a b (storeCell a b' m) = storeCell a b m := by
  induction m with
  | nil => simp [storeCell]
  | cons c m ih =>
    simp only [storeCell]
    by_cases h1 : a < c.1
    · simp [h1, storeCell]
    · by_cases h2 : a = c.1
      · simp [← h2, storeCell]
      · simp [h1, h2, storeCell, ih]

/-- A byte written reads back. -/
@[simp] theorem memRead_memWrite_self (a : Nat) (b : Byte) (s : State) : memRead (memWrite a b s) a = b := by
  simp [memRead, lookupCell_storeCell_self]

/-- A write leaves every other byte alone. -/
theorem memRead_memWrite_other {a a' : Nat} (h : a' ≠ a) (b : Byte) (s : State) :
    memRead (memWrite a b s) a' = memRead s a' := by
  simp [memRead, lookupCell_storeCell_other h]

@[simp] theorem memRead_setRes (v : Word) (s : State) (a : Nat) : memRead (setRes v s) a = memRead s a := rfl

@[simp] theorem permRead_setRes (v : Word) (s : State) (i : Nat) : permRead (setRes v s) i = permRead s i := rfl

@[simp] theorem permRead_memWrite (a : Nat) (b : Byte) (s : State) (i : Nat) :
    permRead (memWrite a b s) i = permRead s i := rfl

/-- The address of a channel byte is inside CANVAS whatever the entry (20_memory.md R62). -/
theorem pixelAddr_lt (p : PermEntry) (ch : Channel) : pixelAddr p.toNat ch < Config.canvasBytes := by
  have hp := p.isLt
  have hc := (channelCode ch).isLt
  simp only [pixelAddr, Config.canvasBytes]
  omega

theorem selectedAddr_lt (ch : Channel) (s : State) : selectedAddr ch s < Config.canvasBytes :=
  pixelAddr_lt _ _

end Sys2Proof.Machine
end

