-- ==== Sys2Proof/Laws/Ops.lean ====
section
/-! SUPPORT. What the shared operations can do: the execution of a command, the codes of the errors, the write of the
permutation memory. -/

namespace Sys2Proof.Machine

/-- An error's code is never 0, so error entry enters error-stop. -/
@[simp] theorem errCode_ne_zero (c : ErrCode) : errCode c ≠ 0 := by cases c <;> decide

/-- An error's code fits bits 7:0. -/
theorem errCode_lt (c : ErrCode) : (errCode c).toNat < 256 := by cases c <;> decide

/-- In error-stop a command is ignored. -/
theorem runCommand_stopped {w : Word} {check : State → Option ErrCode} {effect : State → State} {s : State}
    (h : s.err ≠ 0) : runCommand w check effect s = .next s :=
  if_neg h

/-- With every check passed a command does its writes. -/
theorem runCommand_passed {w : Word} {check : State → Option ErrCode} {effect : State → State} {s : State}
    (h : s.err = 0) (hc : check s = none) : runCommand w check effect s = .next (effect s) := by
  simp [runCommand, h, hc]

/-- A check that fails raises its error. -/
theorem runCommand_raised {w : Word} {check : State → Option ErrCode} {effect : State → State} {s : State}
    {c : ErrCode} (h : s.err = 0) (hc : check s = some c) :
    runCommand w check effect s = .next (raiseErr c w s) := by
  simp [runCommand, h, hc]

/-- All that the execution of a command can do. -/
theorem runCommand_cases {w : Word} {check : State → Option ErrCode} {effect : State → State} {s t : State}
    (h : runCommand w check effect s = .next t) :
    (s.err ≠ 0 ∧ t = s) ∨ (s.err = 0 ∧ check s = none ∧ t = effect s) ∨
      (∃ c, s.err = 0 ∧ check s = some c ∧ t = raiseErr c w s) := by
  by_cases he : s.err = 0
  · cases hc : check s with
    | none =>
      rw [runCommand_passed he hc] at h
      injection h with h
      exact .inr (.inl ⟨he, rfl, h.symm⟩)
    | some c =>
      rw [runCommand_raised he hc] at h
      injection h with h
      exact .inr (.inr ⟨c, he, rfl, h.symm⟩)
  · rw [runCommand_stopped he] at h
    injection h with h
    exact .inl ⟨he, h.symm⟩

/-- A command always answers a next state. -/
theorem runCommand_next (w : Word) (check : State → Option ErrCode) (effect : State → State) (s : State) :
    ∃ t, runCommand w check effect s = .next t := by
  unfold runCommand
  split
  · split <;> exact ⟨_, rfl⟩
  · exact ⟨_, rfl⟩

/-- An entry the write covers reads as the value written, where it fits an entry. -/
theorem permRead_permWrite_lt {p : List Nat} {s : State} {q : Nat} (hq : q < p.length) :
    permRead (permWrite p s) q = BitVec.ofNat 20 p[q] := by
  unfold permRead
  rw [permWrite_perm, List.getElem?_append_left (by simpa using hq)]
  simp [hq]

/-- An entry the write does not cover reads as before. -/
theorem permRead_permWrite_ge {p : List Nat} {s : State} {q : Nat} (hq : p.length ≤ q) :
    permRead (permWrite p s) q = permRead s q := by
  simp [permRead, List.getElem?_append_right, hq]

/-- The index `mulhi(U, i+1)` is never above `i` (43_permutation.md R154). -/
theorem mulhi_lt (u : Word) {m : Nat} (hm : 0 < m) : mulhi u m < m := by
  have hu := u.isLt
  unfold mulhi
  rw [Nat.div_lt_iff_lt_mul (by positivity), mul_comm m]
  exact Nat.mul_lt_mul_of_pos_right hu hm

theorem swapAt_length (i j : Nat) (p : List Nat) : (swapAt i j p).length = p.length := by
  unfold swapAt
  split <;> simp

/-- A swap inside the list exchanges two entries and leaves the others. -/
theorem swapAt_getElem? {i j : Nat} {p : List Nat} (hi : i < p.length) (hj : j < p.length) (q : Nat) :
    (swapAt i j p)[q]? = if q = j then p[i]? else if q = i then p[j]? else p[q]? := by
  have h1 : p[i]? = some p[i] := List.getElem?_eq_getElem hi
  have h2 : p[j]? = some p[j] := List.getElem?_eq_getElem hj
  simp only [swapAt, h1, h2, List.getElem?_set, List.length_set]
  by_cases hq : j = q
  · subst hq; simp [hj]
  · by_cases hq' : i = q
    · subst hq'; simp [hi, hq, Ne.symm hq]
    · simp [hq, hq', Ne.symm hq, Ne.symm hq']

/-- A swap inside the list keeps its members. -/
theorem swapAt_perm {i j : Nat} {p : List Nat} (hi : i < p.length) (hj : j < p.length) :
    (swapAt i j p).Perm p := by
  simp only [swapAt, List.getElem?_eq_getElem hi, List.getElem?_eq_getElem hj]
  exact List.set_set_perm hi hj

/-! ### The checks: when each passes, and what it raises when it does not -/

theorem checkOpen_none {s : State} (h : s.kda = true) : checkOpen s = none := if_pos h

theorem checkOpen_some {s : State} (h : s.kda = false) : checkOpen s = some .kdseq := by simp [checkOpen, h]

theorem checkSeeded_none {g : Gen} {s : State} (h : genSeeded g s = true) : checkSeeded g s = none := if_pos h

theorem checkSeeded_some {g : Gen} {s : State} (h : genSeeded g s = false) : checkSeeded g s = some .norng := by
  simp [checkSeeded, h]

theorem checkFits_none {s : State} (h : s.arg0.toNat ≤ 1048576) : checkFits s = none := if_pos h

theorem checkFits_some {s : State} (h : 1048576 < s.arg0.toNat) : checkFits s = some .range :=
  if_neg (Nat.not_le_of_lt h)

theorem checkPosition_none {s : State} (hp : s.pv = true) (hi : s.arg0.toNat < s.npix.toNat) :
    checkPosition s = none := by
  rw [checkPosition, if_pos hp, if_pos (by exact hi)]

theorem checkPosition_noperm {s : State} (hp : s.pv = false) : checkPosition s = some .noperm := by
  simp [checkPosition, hp]

theorem checkPosition_index {s : State} (hp : s.pv = true) (hi : s.npix.toNat ≤ s.arg0.toNat) :
    checkPosition s = some .index := by
  rw [checkPosition, if_pos hp, if_neg (by rw [arg0Nat]; omega)]

theorem checkAddr_none {s : State} (h : s.arg0.toNat < 4194304) : checkAddr s = none := if_pos h

theorem checkAddr_some {s : State} (h : 4194304 ≤ s.arg0.toNat) : checkAddr s = some .addr :=
  if_neg (Nat.not_lt_of_le h)

end Sys2Proof.Machine
end

