-- ==== Sys2Proof/Laws/Exec.lean ====
section
/-! SUPPORT. Once and for all what the execution of a command can do: ignored, an error raised, or its writes done; and the
same for a word written to CMD and for one step. Later proofs cite these instead of unfolding `exec`, `execFor`, `step`
and `stepFor`. -/

namespace Sys2Proof.Machine

/-- The writes a command does when its checks pass, in the block with the parameter set `P`. A `PROF` of 3 has none. -/
def commandEffect (P : Params) : Instr → State → State
  | .nop, s => s
  | .clr, s => softReset s
  | .clrErr, s => clearErr s
  | .kdInit, s => kdOpen P s
  | .kdAbs k, s => kdAbsorb P k s
  | .kdFin, s => kdClose P s
  | .rngSeed g, s => seedGen g s
  | .rngNext g, s => drawGen P g s
  | .pgShuf, s => shuffle P s
  | .pgRd, s => readPerm s
  | .ccEmb prof bit, s => (profileOf prof).elim s (fun p => ccEmbed p bit s)
  | .ccExt prof, s => (profileOf prof).elim s (fun p => ccExtract p s)
  | .pxEmb ch prof bit, s => (profileOf prof).elim s (fun p => pxEmbed ch p bit s)
  | .pxExt ch prof, s => (profileOf prof).elim s (fun p => pxExtract ch p s)
  | .cvWr d, s => canvasPoke d s
  | .cvRd, s => canvasPeek s

/-- The check of a command: the first error it raises, if any. -/
def commandCheck : Instr → State → Option ErrCode
  | .nop, _ => none
  | .clr, _ => none
  | .clrErr, _ => none
  | .kdInit, _ => none
  | .kdAbs _, s => checkOpen s
  | .kdFin, s => checkOpen s
  | .rngSeed _, _ => none
  | .rngNext g, s => checkSeeded g s
  | .pgShuf, s => checkFits s
  | .pgRd, s => checkPosition s
  | .ccEmb prof _, _ => (profileOf prof).elim (some .illcmd) (fun _ => none)
  | .ccExt prof, _ => (profileOf prof).elim (some .illcmd) (fun _ => none)
  | .pxEmb _ prof _, s => (profileOf prof).elim (some .illcmd) (fun _ => checkPosition s)
  | .pxExt _ prof, s => (profileOf prof).elim (some .illcmd) (fun _ => checkPosition s)
  | .cvWr _, s => checkAddr s
  | .cvRd, s => checkAddr s

/-- Whether a command is executed in error-stop too (60_exceptions.md R256). -/
def runsInErrorStop : Instr → Bool
  | .nop => true
  | .clr => true
  | .clrErr => true
  | _ => false

/-- `execFor P` is the execution of the command's word with the command's check and writes, but for the three commands
error-stop does not stop. -/
theorem execFor_eq_runCommand (P : Params) {i : Instr} (h : runsInErrorStop i = false) (s : State) :
    execFor P i s = runCommand (encode i) (commandCheck i) (commandEffect P i) s := by
  cases i with
  | nop => simp [runsInErrorStop] at h
  | clr => simp [runsInErrorStop] at h
  | clrErr => simp [runsInErrorStop] at h
  | ccEmb prof bit =>
    cases hp : profileOf prof <;>
      simp [execFor, execCcEmb, hp, illegalCommand, runCommand, noCheck, commandCheck, commandEffect]
  | ccExt prof =>
    cases hp : profileOf prof <;>
      simp [execFor, execCcExt, hp, illegalCommand, runCommand, noCheck, commandCheck, commandEffect]
  | pxEmb ch prof bit =>
    cases hp : profileOf prof <;>
      simp [execFor, execPxEmb, hp, illegalCommand, runCommand, commandCheck, commandEffect]
  | pxExt ch prof =>
    cases hp : profileOf prof <;>
      simp [execFor, execPxExt, hp, illegalCommand, runCommand, commandCheck, commandEffect]
  | kdInit => rfl
  | kdAbs k => rfl
  | kdFin => rfl
  | rngSeed g => rfl
  | rngNext g => rfl
  | pgShuf => rfl
  | pgRd => rfl
  | cvWr d => rfl
  | cvRd => rfl

/-- Error-stop does not stop `NOP`, `CLR`, `CLRERR`. -/
theorem execFor_eq_effect (P : Params) {i : Instr} (h : runsInErrorStop i = true) (s : State) :
    execFor P i s = .next (commandEffect P i s) := by
  cases i <;> first | rfl | simp [runsInErrorStop] at h

/-- All that a command can do: its writes (with `ERR` = 0 or as one of the three that error-stop lets through), an error
raised from `ERR` = 0, or nothing in error-stop. -/
theorem execFor_cases {P : Params} {i : Instr} {s t : State} (h : execFor P i s = .next t) :
    (t = commandEffect P i s ∧ (runsInErrorStop i = true ∨ (s.err = 0 ∧ commandCheck i s = none))) ∨
      (∃ c, runsInErrorStop i = false ∧ s.err = 0 ∧ commandCheck i s = some c ∧ t = raiseErr c (encode i) s) ∨
      (runsInErrorStop i = false ∧ s.err ≠ 0 ∧ t = s) := by
  cases hr : runsInErrorStop i with
  | true =>
    rw [execFor_eq_effect P hr] at h
    injection h with h
    exact .inl ⟨h.symm, .inl rfl⟩
  | false =>
    rw [execFor_eq_runCommand P hr] at h
    rcases runCommand_cases h with ⟨he, ht⟩ | ⟨he, hc, ht⟩ | ⟨c, he, hc, ht⟩
    · exact .inr (.inr ⟨rfl, he, ht⟩)
    · exact .inl ⟨ht, .inr ⟨he, hc⟩⟩
    · exact .inr (.inl ⟨c, rfl, he, hc, ht⟩)

/-- With `ERR` = 0 and every check passed a command does its writes. -/
theorem execFor_passed {P : Params} {i : Instr} {s : State} (he : s.err = 0) (hc : commandCheck i s = none) :
    execFor P i s = .next (commandEffect P i s) := by
  cases hr : runsInErrorStop i with
  | true => exact execFor_eq_effect P hr s
  | false => rw [execFor_eq_runCommand P hr, runCommand_passed he hc]

/-- With `ERR` = 0 a check that fails raises its error. -/
theorem execFor_raised {P : Params} {i : Instr} {s : State} {c : ErrCode} (he : s.err = 0) (hc : commandCheck i s = some c) :
    execFor P i s = .next (raiseErr c (encode i) s) := by
  cases hr : runsInErrorStop i with
  | true => cases i <;> simp [runsInErrorStop, commandCheck] at hr hc
  | false => rw [execFor_eq_runCommand P hr, runCommand_raised he hc]

/-- In error-stop a command other than `NOP`, `CLR`, `CLRERR` is ignored. -/
theorem execFor_stopped {P : Params} {i : Instr} {s : State} (hr : runsInErrorStop i = false) (he : s.err ≠ 0) :
    execFor P i s = .next s := by
  rw [execFor_eq_runCommand P hr, runCommand_stopped he]

/-- A command always answers a next state. -/
theorem execFor_next (P : Params) (i : Instr) (s : State) : ∃ t, execFor P i s = .next t := by
  cases hr : runsInErrorStop i with
  | true => exact ⟨_, execFor_eq_effect P hr s⟩
  | false =>
    rw [execFor_eq_runCommand P hr]
    exact runCommand_next _ _ _ _

/-- A command's writes leave `ERR` = 0 as it is. -/
theorem commandEffect_err {P : Params} {i : Instr} {s : State} (h : s.err = 0) : (commandEffect P i s).err = 0 := by
  cases i with
  | clr => rfl
  | clrErr => rfl
  | rngSeed g => cases g <;> exact h
  | rngNext g => cases g <;> simpa [commandEffect] using h
  | pgShuf => simpa [commandEffect] using h
  | ccEmb prof bit => simp only [commandEffect]; cases profileOf prof <;> exact h
  | ccExt prof => simp only [commandEffect]; cases profileOf prof <;> exact h
  | pxEmb ch prof bit => simp only [commandEffect]; cases profileOf prof <;> exact h
  | pxExt ch prof => simp only [commandEffect]; cases profileOf prof <;> exact h
  | _ => exact h

/-! ### The modelled block: the set `params` -/

/-- The modelled block is the block with the set `params`: its commands. -/
theorem execFor_params : execFor params = exec := by
  funext i s
  cases i <;> rfl

/-- The modelled block is the block with the set `params`: its step. -/
theorem stepFor_params : stepFor params = step := by
  funext s
  rw [stepFor, execFor_params, step]

/-- All that a command of the modelled block can do. -/
theorem exec_cases {i : Instr} {s t : State} (h : exec i s = .next t) :
    (t = commandEffect params i s ∧ (runsInErrorStop i = true ∨ (s.err = 0 ∧ commandCheck i s = none))) ∨
      (∃ c, runsInErrorStop i = false ∧ s.err = 0 ∧ commandCheck i s = some c ∧ t = raiseErr c (encode i) s) ∨
      (runsInErrorStop i = false ∧ s.err ≠ 0 ∧ t = s) :=
  execFor_cases (execFor_params ▸ h)

theorem exec_passed {i : Instr} {s : State} (he : s.err = 0) (hc : commandCheck i s = none) :
    exec i s = .next (commandEffect params i s) :=
  execFor_params ▸ execFor_passed he hc

theorem exec_raised {i : Instr} {s : State} {c : ErrCode} (he : s.err = 0) (hc : commandCheck i s = some c) :
    exec i s = .next (raiseErr c (encode i) s) :=
  execFor_params ▸ execFor_raised he hc

theorem exec_stopped {i : Instr} {s : State} (hr : runsInErrorStop i = false) (he : s.err ≠ 0) :
    exec i s = .next s :=
  execFor_params ▸ execFor_stopped hr he

theorem exec_next (i : Instr) (s : State) : ∃ t, exec i s = .next t := execFor_params ▸ execFor_next params i s

/-- All that a word written to CMD can do: what its command does, or `ILLCMD`, or nothing in error-stop. -/
theorem issueWordBy_cases {ex : Execution} {w : Word} {s t : State} (h : issueWordBy ex w s = .next t) :
    (∃ i, decode w = .cmd i ∧ ex i s = .next t) ∨
      (∃ why, decode w = .illegal why ∧
        ((s.err = 0 ∧ t = raiseErr .illcmd w s) ∨ (s.err ≠ 0 ∧ t = s))) := by
  unfold issueWordBy at h
  cases hd : decode w with
  | cmd i => exact .inl ⟨i, rfl, by simpa [hd] using h⟩
  | illegal why =>
    refine .inr ⟨why, rfl, ?_⟩
    rw [hd] at h
    rcases runCommand_cases h with ⟨he, ht⟩ | ⟨_, hc, _⟩ | ⟨c, he, hc, ht⟩
    · exact .inr ⟨he, ht⟩
    · simp at hc
    · simp only [Option.some.injEq] at hc
      exact .inl ⟨he, by rw [ht, hc]⟩

/-- The registers a write at an offset can change, apart from the command register: ARG0 and ARG1. -/
theorem writeOffsetBy_cases {ex : Execution} {off : BitVec 8} {v : Word} {s t : State} (h : writeOffsetBy ex off v s = .next t) :
    (regAt off = some .cmd ∧ issueWordBy ex v s = .next t) ∨ t = { s with arg0 := v } ∨ t = { s with arg1 := v } ∨ t = s := by
  unfold writeOffsetBy at h
  split at h
  · exact .inl ⟨by assumption, h⟩
  · injection h with h; exact .inr (.inl h.symm)
  · injection h with h; exact .inr (.inr (.inl h.symm))
  · injection h with h; exact .inr (.inr (.inr h.symm))

/-- A step (of the modelled block, or with any parameter set: `ex`) whose input is an aligned read: nothing but `reply` changes. -/
theorem takeNextBy_read {ex : Execution} {s : State} {rest : List Input} {off : BitVec 8} (ha : off.toNat % 4 = 0)
    (hi : s.inputs = .read .word off :: rest) :
    takeNextBy ex s = .next { s with inputs := rest, reply := some (readOffset off { s with inputs := rest, reply := none }) } := by
  simp only [takeNextBy, hi, takeInputBy]
  rw [if_pos (by simp [alignedWord, ha])]

/-- A step (of the modelled block, or with any parameter set: `ex`) whose input is an aligned write. -/
theorem takeNextBy_write {ex : Execution} {s : State} {rest : List Input} {off : BitVec 8} {v : Word} (ha : off.toNat % 4 = 0)
    (hi : s.inputs = .write .word off v :: rest) :
    takeNextBy ex s = writeOffsetBy ex off v { s with inputs := rest, reply := none } := by
  simp only [takeNextBy, hi, takeInputBy]
  rw [if_pos (by simp [alignedWord, ha])]

/-- No register stands at an offset from 0x50 up. -/
theorem regAt_none {off : BitVec 8} (h : 0x50 ≤ off.toNat) : regAt off = none := by
  simp only [regAt, List.find?_eq_none]
  intro r _ hr
  simp only [beq_iff_eq] at hr
  subst hr
  cases r <;> simp [regOffset] at h

/-- All that one step can do, on the state `u` with the oldest input taken off: nothing (no input, or a read, which
only leaves a value in `reply`, or an ignored write), a write of ARG0 or ARG1, a word written to CMD, or a hardware
reset. -/
theorem takeNextBy_cases {ex : Execution} {s t : State} (h : takeNextBy ex s = .next t) :
    (s.inputs = [] ∧ t = s) ∨
      ∃ u : State, (∃ rest, u = { s with inputs := rest, reply := none }) ∧
        ((∃ v, t = { u with reply := some v }) ∨ t = u ∨ (∃ v, t = { u with arg0 := v }) ∨
          (∃ v, t = { u with arg1 := v }) ∨ (∃ w, issueWordBy ex w u = .next t) ∨ t = hwReset u) := by
  unfold takeNextBy at h
  split at h
  · injection h with h
    exact .inl ⟨by assumption, h.symm⟩
  · rename_i x rest hi
    refine .inr ⟨{ s with inputs := rest, reply := none }, ⟨rest, rfl⟩, ?_⟩
    cases x with
    | read size off =>
      simp only [takeInputBy] at h
      split at h
      · injection h with h
        exact .inl ⟨_, h.symm⟩
      · simp at h
    | write size off v =>
      simp only [takeInputBy] at h
      split at h
      · rcases writeOffsetBy_cases h with ⟨_, h⟩ | h | h | h
        · exact .inr (.inr (.inr (.inr (.inl ⟨v, h⟩))))
        · exact .inr (.inr (.inl ⟨v, h⟩))
        · exact .inr (.inr (.inr (.inl ⟨v, h⟩)))
        · exact .inr (.inl h)
      · simp at h
    | hwReset =>
      simp only [takeInputBy] at h
      injection h with h
      exact .inr (.inr (.inr (.inr (.inr h.symm))))

end Sys2Proof.Machine
end

