-- ==== Sys2Proof/Laws/Driver.lean ====
section
/-! SUPPORT. What running a host program does: one lemma for each way to build one, so that no later proof unfolds
`runProgBy`. `st` is any step, `stepFor P` that of the block with the parameter set `P`. -/

namespace Sys2Proof.Machine

/-- The state a host program leaves after an access: the model's own fields say which access it was. -/
def afterAccess (r : Option Word) (s : State) : State := { s with inputs := [], reply := r }

variable {st : State → Host.Outcome State Fault Refusal} {P : Params}

@[simp] theorem runProgBy_done {α : Type} (a : α) (s : State) : runProgBy st (.done a) s = .next (a, s) := by
  rw [runProgBy]

/-- Running `p` and then `f` of its value. -/
theorem runProgBy_bind {α β : Type} {p : Prog α} {f : α → Prog β} {s t : State} {a : α}
    (h : runProgBy st p s = .next (a, t)) : runProgBy st (bindProg p f) s = runProgBy st (f a) t := by
  induction p generalizing s with
  | done b =>
    simp only [runProgBy_done, Host.Outcome.next.injEq, Prod.mk.injEq] at h
    rw [bindProg, h.1, h.2]
  | read r next ih =>
    rw [runProgBy] at h
    rw [bindProg, runProgBy]
    cases hs : stepOn st (.read .word (regOffset r)) s with
    | next u => rw [hs] at h; exact ih _ h
    | fault e => rw [hs] at h; simp at h
    | refused e => rw [hs] at h; simp at h
  | write r v next ih =>
    rw [runProgBy] at h
    rw [bindProg, runProgBy]
    cases hs : stepOn st (.write .word (regOffset r) v) s with
    | next u => rw [hs] at h; exact ih h
    | fault e => rw [hs] at h; simp at h
    | refused e => rw [hs] at h; simp at h

theorem runProgBy_then {β : Type} {p : Prog Unit} {q : Prog β} {s t : State} (h : runProgBy st p s = .next ((), t)) :
    runProgBy st (thenProg p q) s = runProgBy st q t :=
  runProgBy_bind h

/-- A register's offset leads back to the register. -/
@[simp] theorem regAt_regOffset (r : Reg) : regAt (regOffset r) = some r := by cases r <;> decide

theorem regOffset_aligned (r : Reg) : (regOffset r).toNat % 4 = 0 := by cases r <;> decide

/-- Reading a register gives its value and leaves everything but `reply` as it was. -/
theorem runProgBy_rd (r : Reg) (s : State) :
    runProgBy (stepFor P) (rd r) s = .next (readReg r s, afterAccess (some (readReg r s)) s) := by
  have e : readReg r { s with inputs := [], reply := none } = readReg r s := by cases r <;> rfl
  rw [rd, runProgBy, stepOn, stepFor, takeNextBy_read (rest := []) (regOffset_aligned r) rfl]
  simp only [readOffset, regAt_regOffset, e, runProgBy_done]
  rfl

/-- Writing ARG0. -/
theorem runProgBy_wr_arg0 (v : Word) (s : State) :
    runProgBy (stepFor P) (wr .arg0 v) s = .next ((), { afterAccess none s with arg0 := v }) := by
  rw [wr, runProgBy, stepOn, stepFor, takeNextBy_write (rest := []) (regOffset_aligned .arg0) rfl]
  simp only [writeOffsetBy, regAt_regOffset, runProgBy_done]
  rfl

/-- Writing ARG1. -/
theorem runProgBy_wr_arg1 (v : Word) (s : State) :
    runProgBy (stepFor P) (wr .arg1 v) s = .next ((), { afterAccess none s with arg1 := v }) := by
  rw [wr, runProgBy, stepOn, stepFor, takeNextBy_write (rest := []) (regOffset_aligned .arg1) rfl]
  simp only [writeOffsetBy, regAt_regOffset, runProgBy_done]
  rfl

/-- A command whose word decodes to it and whose checks pass does its writes. -/
theorem runProgBy_command {i : Instr} {s : State} (hd : decode (encode i) = .cmd i) (he : s.err = 0)
    (hc : commandCheck i (afterAccess none s) = none) :
    runProgBy (stepFor P) (command i) s = .next ((), commandEffect P i (afterAccess none s)) := by
  have hx := execFor_passed (P := P) (i := i) (s := afterAccess none s) he hc
  rw [command, wr, runProgBy, stepOn, stepFor, takeNextBy_write (rest := []) (regOffset_aligned .cmd) rfl]
  simp only [writeOffsetBy, regAt_regOffset, issueWordBy, hd]
  rw [afterAccess] at hx
  rw [hx]
  rfl

/-- The modelled block runs a host program as the block with the set `params` does. -/
theorem runProg_eq {α : Type} (p : Prog α) (s : State) : runProg p s = runProgBy (stepFor params) p s := by
  rw [runProg, stepFor_params]

end Sys2Proof.Machine
end

