-- ==== Sys2Proof/Laws/PerInstr.lean ====
section
/-! SUPPORT. What is stated of each command by itself: family `TableRow`, the word of a well-formed command is a word of
the command's row of the opcode map (30_encoding.md R83). -/

namespace Sys2Proof.Laws.TableRow

/-- The word of a well-formed command has its row's pattern under its row's mask, and a legal `PROF` where the row
uses it. -/
def Statement (i : Instr) : Prop := i.wellFormed = true → (opcodeRow i).covers (encode i) = true

theorem nop : Statement .nop := fun _ => by decide

theorem clr : Statement .clr := fun _ => by decide

theorem clrErr : Statement .clrErr := fun _ => by decide

theorem kdInit : Statement .kdInit := fun _ => by decide

/-- A word whose bits are known to be zero outside an immediate of 16 bits has the pattern under the mask. -/
theorem kdAbs (k : CodeUnit) : Statement (.kdAbs k) := by
  intro _
  have h : encode (.kdAbs k) &&& 0xFFFF0000#32 = 0x11000000#32 := by
    simp only [encode, encodeFields, joinWord]
    apply BitVec.eq_of_getLsbD_eq
    intro i hi
    simp only [BitVec.getLsbD_and, BitVec.getLsbD_append]
    interval_cases i <;> simp
  simp [OpcodeRow.covers, opcodeRow, h]

theorem kdFin : Statement .kdFin := fun _ => by decide

theorem rngSeed (g : Gen) : Statement (.rngSeed g) := fun _ => by cases g <;> decide

theorem rngNext (g : Gen) : Statement (.rngNext g) := fun _ => by cases g <;> decide

theorem pgShuf : Statement .pgShuf := fun _ => by decide

theorem pgRd : Statement .pgRd := fun _ => by decide

theorem ccEmb (prof : BitVec 2) (bit : Bool) : Statement (.ccEmb prof bit) := by
  revert prof bit; unfold Statement; decide

theorem ccExt (prof : BitVec 2) : Statement (.ccExt prof) := by
  revert prof; unfold Statement; decide

theorem pxEmb (ch : Channel) (prof : BitVec 2) (bit : Bool) : Statement (.pxEmb ch prof bit) := by
  cases ch <;> (revert prof bit; unfold Statement; decide)

theorem pxExt (ch : Channel) (prof : BitVec 2) : Statement (.pxExt ch prof) := by
  cases ch <;> (revert prof; unfold Statement; decide)

theorem cvWr (d : Byte) : Statement (.cvWr d) := by
  intro _
  have h : encode (.cvWr d) &&& 0xFFFFFF00#32 = 0x50000000#32 := by
    simp only [encode, encodeFields, joinWord]
    apply BitVec.eq_of_getLsbD_eq
    intro i hi
    simp only [BitVec.getLsbD_and, BitVec.getLsbD_append, BitVec.getLsbD_setWidth]
    interval_cases i <;> simp
  simp [OpcodeRow.covers, opcodeRow, h]

theorem cvRd : Statement .cvRd := fun _ => by decide

end Sys2Proof.Laws.TableRow
end

