-- ==== Sys2Proof/Laws/Permutation.lean ====
section
/-! SUPPORT. The shuffle's length and the entries `PG.SHUF` leaves in PERM. -/

namespace Sys2Proof.Machine

/-- The loop keeps the length of the array. -/
theorem fyLoop_length (P : Params) (i : Nat) (a : Word) (p : List Nat) : (fyLoop P i a p).1.length = p.length := by
  induction i generalizing a p with
  | zero => rfl
  | succ i ih => rw [fyLoop, ih, swapAt_length]

/-- The shuffle of `n` has `n` entries. -/
@[simp] theorem fy_length (P : Params) (n : Nat) (seed : Word) : (fy P n seed).1.length = n := by
  rw [fy, fyLoop_length, List.length_range]

/-- Where `PG.SHUF` writes, PERM reads as the entry of the shuffle, in 20 bits. -/
theorem permRead_shuffle_lt {P : Params} {s : State} {q : Nat} (hq : q < s.arg0.toNat) :
    permRead (shuffle P s) q =
      BitVec.ofNat 20 ((fy P s.arg0.toNat s.arg1).1[q]'(by rw [fy_length]; exact hq)) := by
  have e : permRead (shuffle P s) q = permRead (permWrite (fy P (arg0Nat s) s.arg1).1 s) q := by
    simp [permRead]
  rw [e]
  exact permRead_permWrite_lt (p := (fy P s.arg0.toNat s.arg1).1) (by rw [fy_length]; exact hq)

/-- Where it does not write, PERM reads as before. -/
theorem permRead_shuffle_ge {P : Params} {s : State} {q : Nat} (hq : s.arg0.toNat ≤ q) :
    permRead (shuffle P s) q = permRead s q := by
  have e : permRead (shuffle P s) q = permRead (permWrite (fy P (arg0Nat s) s.arg1).1 s) q := by
    simp [permRead]
  rw [e, permRead_permWrite_ge (by rw [fy_length]; exact hq)]

end Sys2Proof.Machine
end

