-- ==== Sys2Proof/Machine/Listing.lean ====
section
/-! DEFINITION. The listing syntax of a command (30_encoding.md R90). It is notation: no meaning uses it. -/

namespace Sys2Proof.Machine

/-- `ch` in a listing (30_encoding.md R90). -/
def listChannel : Channel → String
  | .r => "R"
  | .g => "G"
  | .b => "B"
  | .a => "A"

/-- `prof` in a listing (30_encoding.md R90); the number 3 where the field names no profile. -/
def listProfile (prof : BitVec 2) : String :=
  match profileOf prof with
  | some .lsb => "LSB"
  | some .sentinel => "SEN"
  | some .fullValue => "FUL"
  | none => "3"

/-- `g` in a listing (30_encoding.md R90). -/
def listGen : Gen → String
  | .g0 => "0"
  | .g1 => "1"

/-- `bit` in a listing (30_encoding.md R90). -/
def listBit (bit : Bool) : String := if bit then "1" else "0"

/-- A command line of the listing syntax (30_encoding.md R90), numbers in decimal. -/
def listing : Instr → String
  | .nop => "NOP"
  | .clr => "CLR"
  | .clrErr => "CLRERR"
  | .kdInit => "KD.INIT"
  | .kdAbs k => "KD.ABS " ++ toString k.toNat
  | .kdFin => "KD.FIN"
  | .rngSeed g => "RNG.SEED " ++ listGen g
  | .rngNext g => "RNG.NEXT " ++ listGen g
  | .pgShuf => "PG.SHUF"
  | .pgRd => "PG.RD"
  | .ccEmb prof bit => "CC.EMB " ++ listProfile prof ++ ", " ++ listBit bit
  | .ccExt prof => "CC.EXT " ++ listProfile prof
  | .pxEmb ch prof bit => "PX.EMB " ++ listChannel ch ++ ", " ++ listProfile prof ++ ", " ++ listBit bit
  | .pxExt ch prof => "PX.EXT " ++ listChannel ch ++ ", " ++ listProfile prof
  | .cvWr d => "CV.WR " ++ toString d.toNat
  | .cvRd => "CV.RD"

end Sys2Proof.Machine
end

