-- ==== Sys2Proof/Tests/Slice0.lean ====
section
/-! SUPPORT. The model's own tests. Expected values are the spec's: the opcode map and the decoder table
(30_encoding.md R83, R92; 95_test_vectors.md "Decoder"), and the vectors V-SYS, V-KD, V-RNG, V-PG, V-CC, V-CV, V-ERR,
V-FR of 95_test_vectors.md. Last, for each statement with hypotheses, values that meet them. -/

namespace Sys2Proof.Tests

open Sys2Proof Sys2Proof.Machine

/-! ### WellFormed: each check refuses an ill-formed term (30_encoding.md R86 clause (c)) -/

theorem test_wf_ccEmb_refuses_prof3 : (Instr.ccEmb 3 true).wellFormed = false := by decide

theorem test_wf_ccExt_refuses_prof3 : (Instr.ccExt 3).wellFormed = false := by decide

theorem test_wf_pxEmb_refuses_prof3 : (Instr.pxEmb .a 3 false).wellFormed = false := by decide

theorem test_wf_pxExt_refuses_prof3 : (Instr.pxExt .r 3).wellFormed = false := by decide

theorem test_wf_accepts_prof2 : (Instr.pxEmb .a 2 false).wellFormed = true := by decide

/-! ### Decoding: words written out bit by bit, OPC 8, zeros 2, CH 2, zeros 2, PROF 2, IMM 16 -/

theorem test_decode_nop : decode 0b00000000_00_00_00_00_0000000000000000 = .cmd .nop := by decide

theorem test_decode_clr : decode 0b00000001_00_00_00_00_0000000000000000 = .cmd .clr := by decide

theorem test_decode_clrErr : decode 0b00000010_00_00_00_00_0000000000000000 = .cmd .clrErr := by decide

theorem test_decode_kdInit : decode 0b00010000_00_00_00_00_0000000000000000 = .cmd .kdInit := by decide

theorem test_decode_kdAbs : decode 0b00010001_00_00_00_00_1000000001110011 = .cmd (.kdAbs 0x8073) := by decide

theorem test_decode_kdFin : decode 0b00010010_00_00_00_00_0000000000000000 = .cmd .kdFin := by decide

theorem test_decode_rngSeed : decode 0b00100000_00_00_00_01_0000000000000000 = .cmd (.rngSeed .g1) := by decide

theorem test_decode_rngNext : decode 0b00100001_00_00_00_00_0000000000000000 = .cmd (.rngNext .g0) := by decide

theorem test_decode_pgShuf : decode 0b00110000_00_00_00_00_0000000000000000 = .cmd .pgShuf := by decide

theorem test_decode_pgRd : decode 0b00110001_00_00_00_00_0000000000000000 = .cmd .pgRd := by decide

theorem test_decode_ccEmb : decode 0b01000000_00_00_00_10_0000000000000001 = .cmd (.ccEmb 2 true) := by decide

theorem test_decode_ccExt : decode 0b01000001_00_00_00_01_0000000000000000 = .cmd (.ccExt 1) := by decide

theorem test_decode_pxEmb : decode 0b01001000_00_01_00_10_0000000000000000 = .cmd (.pxEmb .g 2 false) := by decide

theorem test_decode_pxExt : decode 0b01001001_00_11_00_01_0000000000000000 = .cmd (.pxExt .a 1) := by decide

theorem test_decode_cvWr : decode 0b01010000_00_00_00_00_0000000011111110 = .cmd (.cvWr 0xFE) := by decide

theorem test_decode_cvRd : decode 0b01010001_00_00_00_00_0000000000000000 = .cmd .cvRd := by decide

/-- The ILLEGAL words of the decoder table, each with its reason. -/
theorem test_decode_illegal :
    [0x00000001, 0x10000001, 0x11010000, 0x20020000, 0x21000001, 0x40100000, 0x40000002, 0x41000001, 0x48400000,
      0x49310001, 0x50000100].map decode = List.replicate 11 (.illegal .strayBit) ∧
    [0x03000000, 0x52000000, 0xFFFFFFFF].map decode = List.replicate 3 (.illegal .unknownOpcode) ∧
    [0x40030000, 0x48330000].map decode = List.replicate 2 (.illegal .reservedProfile) := by decide

/-- The host's numbering of a table word gives the same command. -/
theorem test_decodeTableWord : decodeTableWord 32 0x48300001 = some (.pxEmb .a 0 true) := by decide

/-! ### One step on a small state -/

/-- What `f` shows of the state after the command word `w` is written to CMD; none where the step gives no next
state. -/
def see {α : Type} (f : State → α) (w : Nat) (s : State) : Option α :=
  match step (s.withFetchWord 32 w) with
  | .next t => some (f t)
  | .fault _ => none
  | .refused _ => none

/-- The reset state with ARG0 and ARG1. -/
def withArgs (x y : Word) : State := { State.reset with arg0 := x, arg1 := y }

/-- The state after `SHUFFLE 8, 0` (V-PG-3) with ARG0. -/
def shuffled (x : Word) : State :=
  { State.reset with
    arg0 := x, perm := [4, 7, 3, 5, 6, 1, 0, 2], npix := 8, a0 := 0xFC3055B3, rv0 := true, pv := true }

/-- An open derivation with the initial accumulators of P0. -/
def opened : State :=
  { State.reset with h := ⟨0x6A09E667, 0xBB67AE85, 0x3C6EF372, 0xA54FF53A⟩, kda := true }

/-- The state of V-SYS-2. -/
def dirty : State :=
  { State.reset with
    err := 5, errcmd := 0x31000000, arg0 := 9, res := 7, npix := 8, pv := true, rv0 := true, seedv := true
    seed := ⟨0x34E83C51, 0, 0, 0⟩, canvas := [(63, 0x52)] }

theorem test_nop : see id 0x00000000 dirty = some { dirty with inputs := [] } := by decide

theorem test_clr : see (fun t => ((t.err, t.errcmd, t.arg0, t.res), (t.npix, t.seed.x1, status t), memRead t 63))
    0x01000000 dirty = some ((0, 0, 0, 0), (0, 0, 0), 0x52) := by decide

theorem test_clrErr : see (fun t => (t.err, t.errcmd, t.npix, status t)) 0x02000000
    { shuffled 0 with err := 6, errcmd := 0x31000000 } = some (0, 0, 8, 0x28) := by decide

/-- V-KD-9: after a finished derivation `KD.INIT` leaves the seeds, and STATUS is 2. -/
theorem test_kdInit : see (fun t => (t.h, t.klen, t.seed.x1, status t)) 0x10000000
    { State.reset with seedv := true, klen := 6, seed := ⟨0xA8136827, 0, 0, 0⟩ } =
      some (⟨0x6A09E667, 0xBB67AE85, 0x3C6EF372, 0xA54FF53A⟩, 0, 0xA8136827, 2) := by decide

/-- V-KD-7: the fourth accumulator takes the new first. -/
theorem test_kdAbs : see (fun t => (t.h, t.klen)) 0x11000061 opened =
    some (⟨0xA8136827, 0x7373E776, 0x9A8418C5, 0x89C02466⟩, 1) := by decide

/-- V-KD-6, last row. -/
theorem test_kdAbs_ones : see (fun t => (t.h, t.klen)) 0x1100FFFF
    { opened with h := ⟨0xFFFFFFFF, 0xFFFFFFFF, 0xFFFFFFFF, 0xFFFFFFFF⟩, klen := 0xFFFFFFFF } =
      some (⟨0x961AFFFF, 0x9788FFFF, 0x4AE4FFFF, 0xE277FFFF⟩, 0) := by decide

/-- V-KD-1. -/
theorem test_kdFin : see (fun t => (t.seed, t.h, status t)) 0x12000000 opened =
    some (⟨0x6A09E667, 0xBB67AE85, 0x3C6EF372, 0xA54FF53A⟩, ⟨0x6A09E667, 0xBB67AE85, 0x3C6EF372, 0xA54FF53A⟩, 4) := by
  decide

/-- V-KD-9: `KDSEQ` from reset. -/
theorem test_kdFin_kdseq : see (fun t => (t.err, t.errcmd, t.seedv)) 0x12000000 State.reset =
    some (2, 0x12000000, false) := by decide

/-- Another parameter set: P0 with the finalisation G3 writes out and the spec does not adopt
(93_implementation_defined.md G3). -/
def setG3 : Params :=
  { paramsP0 with
    kdFinalize := fun h =>
      let h1 := (h.x3 ^^^ (h.x1 >>> 18)) * 597399067
      let h2 := (h.x4 ^^^ (h.x2 >>> 22)) * 2869860233
      let h3 := (h1 ^^^ (h.x3 >>> 17)) * 951274213
      let h4 := (h2 ^^^ (h.x4 >>> 19)) * 2716044179
      let g := h1 ^^^ h2 ^^^ h3 ^^^ h4
      ⟨g, h2 ^^^ g, h3 ^^^ g, h4 ^^^ g⟩ }

/-- The seeds of the empty password with that set, from the table of G3. -/
theorem test_kdFin_setG3 :
    (match execFor setG3 .kdFin opened with | .next t => some t.seed | .fault _ => none | .refused _ => none) =
      some ⟨0x027AE52E, 0xCFC79621, 0x5593990D, 0x4B41437C⟩ := by decide

theorem test_rngSeed : see (fun t => (t.a0, t.a1, status t)) 0x20010000 (withArgs 1 7) = some (0, 1, 0x10) := by decide

/-- V-RNG-5: the addition wraps. -/
theorem test_rngNext : see (fun t => (t.a0, t.res)) 0x21000000 { State.reset with a0 := 0xFFFFFFFF, rv0 := true } =
    some (0x6D2B79F4, 0xE57BF3D3) := by decide

/-- V-RNG-6: seeding generator 0 does not seed generator 1. -/
theorem test_rngNext_norng : see (fun t => (t.err, t.errcmd, t.a1, t.res)) 0x21010000
    { State.reset with a0 := 5, rv0 := true } = some (3, 0x21010000, 0, 0) := by decide

/-- V-PG-3. -/
theorem test_pgShuf : see (fun t => ((List.range 8).map (fun q => (permRead t q).toNat), t.npix, t.a0, status t))
    0x30000000 (withArgs 8 0) = some ([4, 7, 3, 5, 6, 1, 0, 2], 8, 0xFC3055B3, 0x28) := by decide +kernel

/-- V-PG-9: one pixel too many. -/
theorem test_pgShuf_range : see (fun t => (t.err, t.errcmd, t.npix, t.a0, t.pv)) 0x30000000 (shuffled 0x100001) =
    some (4, 0x30000000, 8, 0xFC3055B3, true) := by decide

/-- V-PG-10. -/
theorem test_pgRd : see (fun t => (t.res, t.arg0)) 0x31000000 (shuffled 7) = some (2, 7) := by decide

/-- V-PG-10: the position is compared in all its bits. -/
theorem test_pgRd_index : see (fun t => (t.err, t.errcmd, t.res)) 0x31000000 (shuffled 0x00100000) =
    some (6, 0x31000000, 0) := by decide

/-- V-CC-2. -/
theorem test_ccEmb : see (fun t => (t.res, t.arg0)) 0x40000000 (withArgs 0xA7 0) = some (0xA6, 0xA7) := by decide

theorem test_ccEmb_sentinel : see (fun t => t.res) 0x40010000 (withArgs 0xA7 0) = some 0xFE := by decide

/-- V-CC-2: the high bits of ARG0 are ignored. -/
theorem test_ccExt : see (fun t => t.res) 0x41010000 (withArgs 0x000001FF 0) = some 1 := by decide

theorem test_ccExt_254 : see (fun t => t.res) 0x41020000 (withArgs 0xFFFFFFFE 0) = some 0 := by decide

/-- V-CV-2: alpha of pixel PERM[5] = 1 is byte 7. -/
theorem test_pxEmb : see (fun t => (t.res, memRead t 7, memRead t 6)) 0x48300001
    { shuffled 5 with canvas := [(6, 0x11), (7, 0x52)] } = some (0x53, 0x53, 0x11) := by decide

/-- V-CV-2: a byte is written where nothing was, and the errors of V-CV-3. -/
theorem test_pxEmb_full : see (fun t => (t.res, t.canvas)) 0x48020001 (shuffled 0) = some (0xFF, [(16, 0xFF)]) ∧
    see (fun t => (t.err, t.errcmd, t.canvas)) 0x48300001 State.reset = some (5, 0x48300001, []) ∧
    see (fun t => t.err) 0x48300001 (shuffled 8) = some 6 ∧ see (fun t => t.err) 0x48330000 State.reset = some 1 := by
  decide

/-- V-CV-2. -/
theorem test_pxExt : see (fun t => t.res) 0x49300000 { shuffled 5 with canvas := [(7, 0x53)] } = some 1 ∧
    see (fun t => t.res) 0x49310000 { shuffled 5 with canvas := [(7, 0x53)] } = some 0 := by decide

theorem test_pxExt_index : see (fun t => t.err) 0x49300000 (shuffled 0xFFFFFFFF) = some 6 := by decide

/-- V-CV-1: the last byte of CANVAS, with `PV` = 0. -/
theorem test_cvWr : see (fun t => (t.canvas, t.res)) 0x500000AB (withArgs 0x003FFFFF 0) =
    some ([(0x3FFFFF, 0xAB)], 0) := by decide

theorem test_cvWr_addr : see (fun t => (t.err, t.errcmd, t.canvas)) 0x50000000 (withArgs 0x00400000 0) =
    some (7, 0x50000000, []) := by decide

theorem test_cvRd : see (fun t => t.res) 0x51000000 { withArgs 63 0 with canvas := [(63, 0x52)] } = some 0x52 := by
  decide

theorem test_cvRd_addr : see (fun t => (t.err, t.errcmd)) 0x51000000 (withArgs 0xFFFFFFFF 0) =
    some (7, 0x51000000) := by decide

/-- V-ERR-1, V-ERR-2: in error-stop an illegal word and a command are ignored. -/
theorem test_error_stop : see (fun t => (t.err, t.errcmd)) 0x03000000 dirty = some (5, 0x31000000) ∧
    see (fun t => (t.a0, status t)) 0x20000000 { dirty with a0 := 3 } = some (3, 0x2D) := by decide

/-- V-SYS-5: reads of ID, CMD and an unmapped offset; a write to RES. -/
theorem test_register_interface : readOffset 0x00 dirty = 0x534B5031 ∧ readOffset 0x04 dirty = 0 ∧
    readOffset 0x50 dirty = 0 ∧ writeOffset 0x1C 5 dirty = .next dirty ∧ writeOffset 0xFC 1 dirty = .next dirty :=
  ⟨by decide, by decide, by decide, rfl, rfl⟩

/-- V-PG-7. -/
theorem test_mulhi : mulhi 0x80000000 2 = 1 ∧ mulhi 0x7FFFFFFF 2 = 0 ∧ mulhi 0x55555555 3 = 0 ∧
    mulhi 0x55555556 3 = 1 ∧ mulhi 0xFFFFFFFF 0x100000 = 1048575 := by decide

/-- V-FR-1: `frame("HI")`. -/
theorem test_frame : (frame [0x48, 0x49]).map Bool.toNat =
    [0, 0, 0, 0, 0, 0, 0, 0, 0, 0, 0, 0, 0, 0, 1, 0, 0, 1, 0, 0, 1, 0, 0, 0, 0, 1, 0, 0, 1, 0, 0, 1] := by decide

/-- V-FR-2, V-FR-3. -/
theorem test_unframe_bounds : unframe (fun t => if t = 15 then 1 else 0) 23 = .error .corruptOrWrongPassword ∧
    unframe (fun _ => 0) 16 = .ok [] ∧ unframe (fun _ => 0) 15 = .error .corruptOrWrongPassword ∧
    checkEncode ⟨4, 6, []⟩ [1] [] = some .emptyMessage ∧
    checkEncode ⟨1, 23, List.replicate 92 0⟩ [1] [1] = some .capacityExceeded ∧
    checkDecode ⟨1, 15, List.replicate 60 0⟩ [1] = some .corruptOrWrongPassword := by decide

/-- 46_host_driver.md R215: a code above 255 comes back as its low 8 bits. -/
theorem test_unframe_lowers :
    unframe (fun q => ((frame [0x20AC])[q]?.getD false).toNat) 24 = .ok [0xAC] := by decide

/-- 30_encoding.md R90. -/
theorem test_listing : listing (.pxEmb .a 0 true) = "PX.EMB A, LSB, 1" := by decide

/-! ### The hypotheses of the statements can be met -/

theorem reset_noError : State.reset.err = 0 := rfl

theorem meets_DecodeOfEncodeIsTheCommand : (Instr.pxEmb .a 2 true).wellFormed = true := by decide

theorem meets_EncodeOfDecodeIsTheWord : decode 0x49310000 = .cmd (.pxExt .a 1) := by decide

theorem meets_LegalWordsAreTheTableRows : ∃ r ∈ opcodeTable,
    0x49020000#32 &&& r.mask = r.pattern ∧ (r.usesProf = true → (0x49020000#32).extractLsb' 16 2 ≠ 3) :=
  ⟨opcodeRow (.pxExt .r 0), by decide, by decide, by decide⟩

theorem meets_IllegalWordsAreListedAndRaiseIllcmd :
    decode 0x40030000 = .illegal .reservedProfile ∧ State.reset.err = 0 ∧ dirty.err ≠ 0 := by decide

/-- The reset state with one access to take. -/
def given (x : Input) : State := { State.reset with inputs := [x] }

theorem meets_StepRunsTheDecodedCommand : decode 0x10000000 = .cmd .kdInit ∧
    (given (.write .word 0x04 0x10000000)).inputs = [.write .word 0x04 0x10000000] := by decide

theorem meets_RegisterAccessRules :
    (given (.read .word 0x4C)).inputs = [.read .word 0x4C] ∧ State.reset.a1 = 0 ∧
    (given (.write .word 0x14 3)).inputs = [.write .word 0x14 3] ∧
    (given (.write .word 0x18 3)).inputs = [.write .word 0x18 3] ∧
    (given (.write .word 0x1C 3)).inputs = [.write .word 0x1C 3] ∧
    (given (.write .word 0x04 3)).inputs = [.write .word 0x04 3] := by decide

theorem meets_UnmappedOffsetsReadZeroIgnoreWrites :
    (0x50 ≤ (0x50#8).toNat ∧ (0x50#8).toNat % 4 = 0) ∧ (0x50 ≤ (0xFC#8).toNat ∧ (0xFC#8).toNat % 4 = 0) := by decide

theorem meets_OnlyAlignedWordAccessesHaveMeaning :
    (Size.half ≠ .word ∧ (given (.read .half 0)).inputs = [.read .half 0]) ∧
    ((1#8).toNat % 4 ≠ 0 ∧ (given (.write .word 1 0)).inputs = [.write .word 1 0]) ∧
    ((0xFC#8).toNat % 4 = 0 ∧ (given (.read .word 0xFC)).inputs = [.read .word 0xFC]) := by decide

theorem meets_HardwareResetGivesTheResetState : (given .hwReset).inputs = [.hwReset] := by decide

theorem meets_ClrAgreesWithResetButForCanvas :
    ∃ t u, exec .clr dirty = .next t ∧ takeInput .hwReset dirty = .next u := ⟨_, _, rfl, rfl⟩

theorem meets_ClrErrClearsTheErrorOnly : State.reset.err = 0 ∧ State.reset.errcmd = 0 ∧
    ∃ t, issueWord 0x31000000 State.reset = .next t ∧ t.err ≠ 0 := ⟨rfl, rfl, _, rfl, by decide⟩

theorem meets_ErrorEntryIsPrecise : ∃ t, issueWord 0x49300000 (shuffled 8) = .next t ∧ t.err ≠ 0 :=
  ⟨_, rfl, by decide⟩

theorem meets_EachErrorIsRaisedExactlyWhen :
    decode 0x51000000 = .cmd .cvRd ∧ (withArgs 0x400000 0).err = 0 ∧ decode 0xFFFFFFFF = .illegal .unknownOpcode := by
  decide

theorem meets_ErrorStopIgnoresAllButThreeCommands : dirty.err ≠ 0 ∧
    decode 0x10000000 ≠ .cmd .nop ∧ decode 0x10000000 ≠ .cmd .clr ∧ decode 0x10000000 ≠ .cmd .clrErr ∧
    decode 0x00000000 = .cmd .nop ∧ decode 0x01000000 = .cmd .clr ∧ decode 0x02000000 = .cmd .clrErr := by decide

theorem meets_ErrorPriority : (∃ t, dirty.err ≠ 0 ∧ issueWord 0x31000000 dirty = .next t) ∧
    decode 0x48330000 = .illegal .reservedProfile ∧
    (State.reset.err = 0 ∧ State.reset.pv = false ∧ decode 0x31000000 = .cmd .pgRd) :=
  ⟨⟨_, by decide, rfl⟩, by decide, by decide⟩

theorem meets_ParametersAreTheDefaultSet : ∃ t1 t2 : Word, t1 = ((0 : Word) ^^^ (0 >>> 15)) * (0 ||| 1) ∧
    t2 = t1 ^^^ (t1 + (t1 ^^^ (t1 >>> 7)) * (t1 ||| 61)) := ⟨_, _, rfl, rfl⟩

theorem meets_KdInitOpensADerivation : State.reset.err = 0 ∧ opened.err = 0 := by decide

theorem meets_KdAbsAbsorbsACodeUnit : (opened.err = 0 ∧ opened.kda = true ∧ (0xFFFF#32).toNat = (0xFFFF#16).toNat) ∧
    (State.reset.err = 0 ∧ State.reset.kda = false) := by decide

theorem meets_KdFinMakesTheSeeds : (opened.err = 0 ∧ opened.kda = true) ∧
    (State.reset.err = 0 ∧ State.reset.kda = false) := by decide

/-- The two machines the statements for every parameter set are about. -/
theorem meets_execution_cases : (execFor setG3 = execFor setG3 ∨ setG3 = params ∧ execFor setG3 = exec) ∧
    (exec = execFor params ∨ params = params ∧ exec = exec) := ⟨.inl rfl, .inr ⟨rfl, rfl⟩⟩

theorem meets_DerivationIsTheFoldOfTheRounds :
    (execFor setG3 = execFor setG3 ∨ setG3 = params ∧ execFor setG3 = exec) ∧ opened.err = 0 :=
  ⟨meets_execution_cases.1, by decide⟩

theorem meets_RngSeedSeedsOneGenerator : (withArgs 0xFFFFFFFF 0).err = 0 := by decide

theorem meets_RngNextDraws : ((shuffled 0).err = 0 ∧ (shuffled 0).rv0 = true ∧ (shuffled 0).rv1 = false) ∧
    ({ State.reset with rv1 := true } : State).err = 0 ∧ ({ State.reset with rv1 := true } : State).rv1 = true ∧
    ({ State.reset with rv1 := true } : State).rv0 = false := by decide

theorem meets_DrawsFollowTheStateSequence :
    (exec = execFor params ∨ params = params ∧ exec = exec) ∧ (withArgs 0xFFFFFFFF 0).err = 0 ∧ 1 ≤ 1 :=
  ⟨meets_execution_cases.2, by decide⟩

theorem meets_GeneratorPeriodIsFull : params.Legal := by unfold Params.Legal; decide

theorem meets_ShuffleIsTheDescendingFisherYates : 0 ≤ 1048576 ∧ 1048576 ≤ 1048576 := by decide

theorem meets_ShuffleIndexIsTheExactFloor : 1048575 + 1 ≤ 1048576 := by decide

theorem meets_ShuffleIsAPermutation :
    (∃ t, (withArgs 2 0).err = 0 ∧ exec .pgShuf (withArgs 2 0) = .next t ∧ t.err = 0) ∧
    ∃ t, execFor setG3 .pgShuf (withArgs 2 0) = .next t ∧ t.err = 0 := ⟨⟨_, rfl, rfl, rfl⟩, _, rfl, rfl⟩

theorem meets_PgShufStoresTheShuffle :
    ((withArgs 0x100000 0).err = 0 ∧ (withArgs 0x100000 0).arg0.toNat ≤ 1048576) ∧
    ((withArgs 0x100001 0).err = 0 ∧ 1048576 < (withArgs 0x100001 0).arg0.toNat) := by decide

theorem meets_GeneratorAfterAShuffle : (exec = execFor params ∨ params = params ∧ exec = exec) ∧
    ∃ t, (withArgs 0 5).err = 0 ∧ exec .pgShuf (withArgs 0 5) = .next t ∧ t.err = 0 :=
  ⟨meets_execution_cases.2, _, rfl, rfl, rfl⟩

theorem meets_ShuffleOfZeroAndOne : ((withArgs 0 5).err = 0 ∧ (withArgs 0 5).arg0 = 0) ∧
    ((withArgs 1 5).err = 0 ∧ (withArgs 1 5).arg0 = 1) := by decide

theorem meets_ShuffleIsDeterminedByNAndSeed : (exec = execFor params ∨ params = params ∧ exec = exec) ∧
    ∃ t t', exec .pgShuf (withArgs 2 5) = .next t ∧
      exec .pgShuf { opened with arg0 := 2, arg1 := 5 } = .next t' ∧ t.err = 0 ∧ 1 < (withArgs 2 5).arg0.toNat :=
  ⟨meets_execution_cases.2, _, _, rfl, rfl, rfl, by decide⟩

/-- The conditions under which a position is taken, at the last position; and each condition failing, at the first. -/
theorem meets_position_clauses :
    ((shuffled 7).err = 0 ∧ (shuffled 7).pv = true ∧ (shuffled 7).arg0.toNat < (shuffled 7).npix.toNat) ∧
    (State.reset.err = 0 ∧ State.reset.pv = false) ∧
    ((shuffled 8).err = 0 ∧ (shuffled 8).pv = true ∧ (shuffled 8).npix.toNat ≤ (shuffled 8).arg0.toNat) := by decide

theorem meets_PgRdReadsAnEntry : (shuffled 7).pv = true ∧ (shuffled 7).arg0.toNat < (shuffled 7).npix.toNat :=
  ⟨meets_position_clauses.1.2.1, meets_position_clauses.1.2.2⟩

theorem meets_CcEmbEmbedsInTheOperandByte : (withArgs 0x1FF 0).err = 0 ∧
    (0xFF#8).toNat = (withArgs 0x1FF 0).arg0.toNat % 256 := by decide

theorem meets_CcExtExtractsFromTheOperandByte : (withArgs 0xFFFFFF00 0).err = 0 ∧
    (0x00#8).toNat = (withArgs 0xFFFFFF00 0).arg0.toNat % 256 := by decide

theorem meets_CodecLaws : (0x53#8).getLsbD 0 = true ∧ (0x52#8).getLsbD 0 = false := by decide

theorem meets_PxEmbEmbedsInTheSelectedByte : (shuffled 7).err = 0 ∧ (shuffled 7).pv = true ∧
    (shuffled 7).arg0.toNat < (shuffled 7).npix.toNat ∧
    11 = 4 * (permRead (shuffled 7) (shuffled 7).arg0.toNat).toNat + (channelCode .a).toNat ∧
    0x48330000#32 = encode (.pxEmb .a 3 false) := by decide

theorem meets_PxExtExtractsFromTheSelectedByte : (shuffled 0).err = 0 ∧ (shuffled 0).pv = true ∧
    (shuffled 0).arg0.toNat < (shuffled 0).npix.toNat ∧
    16 = 4 * (permRead (shuffled 0) (shuffled 0).arg0.toNat).toNat + (channelCode .r).toNat ∧
    0x49030000#32 = encode (.pxExt .r 3) := by decide

/-- The state after `SHUFFLE 2, 0` (V-PG-2), ARG0 at the last position. -/
def shuffledTwo : State :=
  { State.reset with arg0 := 1, perm := [1, 0], npix := 2, a0 := 0x6D2B79F5, rv0 := true, pv := true }

/-- A state with a valid permutation that meets the invariants. -/
theorem shuffledTwo_inv : Inv shuffledTwo where
  err_high := by decide
  errcmd_zero _ := rfl
  perm_valid _ := by
    refine ⟨by decide, fun q hq => ?_⟩
    have hq : q < 2 := hq
    interval_cases q
    · refine ⟨1, by decide, ?_⟩
      rintro i ⟨hi, h⟩
      have hi : i < 2 := hi
      interval_cases i
      · exact absurd h (by decide)
      · rfl
    · refine ⟨0, by decide, ?_⟩
      rintro i ⟨hi, h⟩
      have hi : i < 2 := hi
      interval_cases i
      · rfl
      · exact absurd h (by decide)
  npix_zero h := by cases h
  status_high k hk := by
    by_cases h32 : k < 32
    · interval_cases k <;> decide
    · exact BitVec.getLsbD_of_ge _ _ (by omega)
  seeds_stale h := by cases h

theorem shuffledTwo_form : DataForm shuffledTwo := ⟨⟨List.Pairwise.nil, fun c hc => by cases hc⟩, by decide⟩

theorem meets_SelectedAddressIsInsideCanvas : Inv shuffledTwo ∧ shuffledTwo.pv = true ∧
    shuffledTwo.arg0.toNat < shuffledTwo.npix.toNat := ⟨shuffledTwo_inv, rfl, by decide⟩

theorem meets_CvWrWritesAByte : ((withArgs 0x3FFFFF 0).err = 0 ∧ (withArgs 0x3FFFFF 0).arg0.toNat < 4194304) ∧
    ((withArgs 0x400000 0).err = 0 ∧ 4194304 ≤ (withArgs 0x400000 0).arg0.toNat) := by decide

theorem meets_CvRdReadsAByte : ((withArgs 0 0).err = 0 ∧ (withArgs 0 0).arg0.toNat < 4194304) ∧
    ((withArgs 0xFFFFFFFF 0).err = 0 ∧ 4194304 ≤ (withArgs 0xFFFFFFFF 0).arg0.toNat) := by decide

theorem meets_EmbedThenExtractReturnsTheBit : Inv shuffledTwo ∧ shuffledTwo.err = 0 ∧ shuffledTwo.pv = true ∧
    (1#32).toNat < shuffledTwo.npix.toNat ∧
    ∀ o ∈ [(Channel.a, Profile.lsb, 0#32, true)], o.2.2.1 ≠ 1#32 ∧ o.2.2.1.toNat < shuffledTwo.npix.toNat :=
  ⟨shuffledTwo_inv, rfl, rfl, by decide, by decide⟩

theorem meets_EmbedsAtDifferentPositionsCommute : Inv shuffledTwo ∧ DataForm shuffledTwo ∧ shuffledTwo.err = 0 ∧
    shuffledTwo.pv = true ∧ (0#32).toNat < shuffledTwo.npix.toNat ∧ (1#32).toNat < shuffledTwo.npix.toNat ∧
    0#32 ≠ 1#32 := ⟨shuffledTwo_inv, shuffledTwo_form, rfl, rfl, by decide, by decide, by decide⟩

theorem meets_PokeThenPeekReturnsTheByte : State.reset.err = 0 ∧ (0x3FFFFF#32).toNat < 4194304 ∧
    ∀ o ∈ [(0#32, 0xAB#8)], o.1 ≠ 0x3FFFFF#32 ∧ o.1.toNat < 4194304 :=
  ⟨rfl, by decide, by simp⟩

theorem meets_OnlyTheNamedCommandsWriteEachRegister : ∃ t, exec .kdFin opened = .next t ∧ Instr.kdFin ≠ .clr :=
  ⟨_, rfl, by decide⟩

theorem meets_OnlyTheNamedCommandsWriteTheMemories : ∃ t, exec .pgShuf (withArgs 1 5) = .next t ∧
    (withArgs 1 5).arg0.toNat ≤ 1 := ⟨_, rfl, by decide⟩

theorem meets_GeneratorsAreIndependent :
    (∃ t, exec (.rngNext .g0) (shuffled 0) = .next t) ∧
    (∃ t u, exec (.rngSeed .g1) State.reset = .next t ∧
      exec (.rngSeed .g1) { State.reset with a0 := 3, rv0 := true } = .next u) ∧
    (∃ t u, exec .pgShuf (withArgs 2 0) = .next t ∧
      exec .pgShuf { withArgs 2 0 with a1 := 3, rv1 := true } = .next u) :=
  ⟨exec_next _ _, ⟨_, _, rfl, rfl⟩,
    (exec_next _ _).elim fun t ht => (exec_next _ _).elim fun u hu => ⟨t, u, ht, hu⟩⟩

theorem meets_IdempotentCommands : ∃ t, exec .pgRd (shuffled 7) = .next t := ⟨_, rfl⟩

theorem meets_StepKeepsTheInvariants : Inv shuffledTwo ∧ (∃ t, step shuffledTwo = .next t) ∧
    ∃ t, stepFor setG3 shuffledTwo = .next t := ⟨shuffledTwo_inv, ⟨_, rfl⟩, _, rfl⟩

theorem meets_StepKeepsTheDataForm : ∃ t, DataForm shuffledTwo ∧ step shuffledTwo = .next t :=
  ⟨_, shuffledTwo_form, rfl⟩

theorem meets_FrameBits : 1 ≤ [0x48#16].length ∧ [0x48#16].length ≤ 65535 ∧ [0x48#16][0]? = some 0x48#16 ∧ 7 < 8 ∧
    15 < 16 := by decide

theorem meets_UnframeInvertsFrame : [0x41#16].length ≤ 65535 ∧ frameBitCount [0x41#16].length ≤ 24 ∧
    (∀ (t : Nat) (b : Bool), (frame [0x41#16])[t]? = some b →
      (fun q => if (frame [0x41#16])[q]? = some true then 1 else 0) t = if b then 1 else 0) ∧
    (∀ c ∈ [0x41#16], c.toNat ≤ 255) := by
  refine ⟨by decide, by decide, fun t b h => ?_, by simp⟩
  show (if (frame [0x41#16])[t]? = some true then 1 else 0) = _
  rw [h]
  cases b <;> rfl

/-- The smallest canvas that carries a message: 24 pixels, one character (46_host_driver.md R222). -/
theorem meets_DecodeOfEncodeIsTheMessage :
    (stepFor setG3 = step ∨ ∃ P, stepFor setG3 = stepFor P) ∧
    (State.reset.err = 0 ∨ (DriverConfig.mk .a .lsb true false false).clearBefore = true) ∧
    (dirty.err = 0 ∨ (DriverConfig.mk .a .lsb false true true).clearBefore = true) ∧
    checkEncode ⟨4, 6, List.replicate 96 0⟩ [0x61] [0xFF] = none ∧ (∀ k ∈ [0xFF#16], k.toNat ≤ 255) := by
  refine ⟨.inr ⟨_, rfl⟩, .inl rfl, .inr rfl, ?_, by simp⟩
  simp [checkEncode, totalPixels, frameBitCount, Config.nmax]

end Sys2Proof.Tests
end

section
/-! The register file's edges (10_state.md): the unmapped offsets (R23) and the bits of STATUS (R26). -/

namespace Sys2Proof.Machine

/-! ### Accesses to one aligned offset -/

theorem readOffset_unmapped {off : BitVec 8} (h : regAt off = none) (s : State) : readOffset off s = 0 := by
  simp only [readOffset, h]

theorem writeOffsetBy_unmapped {off : BitVec 8} (h : regAt off = none) (ex : Execution) (v : Word) (s : State) :
    writeOffsetBy ex off v s = .next s := by
  simp only [writeOffsetBy, h]

theorem alignedWord_word {off : BitVec 8} (h : off.toNat % 4 = 0) : alignedWord .word off = true := by
  simp [alignedWord, h]

theorem takeInputBy_read_aligned {off : BitVec 8} (h : off.toNat % 4 = 0) (ex : Execution) (s : State) :
    takeInputBy ex (.read .word off) s = .next { s with reply := some (readOffset off s) } :=
  if_pos (alignedWord_word h)

theorem takeInputBy_write_aligned {off : BitVec 8} (h : off.toNat % 4 = 0) (ex : Execution) (v : Word) (s : State) :
    takeInputBy ex (.write .word off v) s = writeOffsetBy ex off v s :=
  if_pos (alignedWord_word h)

/-- Settles O8: no register lies at or above 0x50, so a read finds nothing to return and a write nothing to store to. -/
theorem unmappedOffsetsReadZeroIgnoreWrites : Obligations.UnmappedOffsetsReadZeroIgnoreWrites := by
  intro s off v hlow halign
  have hnone : regAt off = none := regAt_none hlow
  have hread : readOffset off s = 0 := readOffset_unmapped hnone s
  refine ⟨⟨hread, ?_⟩, ?_⟩
  · rw [takeInput, takeInputBy_read_aligned halign, hread]
  · rw [takeInput, takeInputBy_write_aligned halign, writeOffsetBy_unmapped hnone]

/-! ### The bits of STATUS -/

/-- A flag's word has the flag at bit 0 and zeros above. -/
theorem flagWord_getLsbD (b : Bool) (k : Nat) : (flagWord b).getLsbD k = (decide (k = 0) && b) := by
  cases b
  · simp [flagWord]
  · simp [flagWord, BitVec.getLsbD_one]

/-- A flag's word moved up to bit `i` has the flag there and zeros elsewhere. -/
theorem flagWord_shiftLeft_getLsbD (b : Bool) {i : Nat} (hi : i < 32) (k : Nat) :
    (flagWord b <<< i).getLsbD k = (decide (k = i) && b) := by
  rw [BitVec.getLsbD_shiftLeft, flagWord_getLsbD]
  by_cases hk : k = i
  · simp [hk, hi]
  · have hoff : k < i ∨ k - i ≠ 0 := by omega
    rcases hoff with hoff | hoff <;> simp [hk, hoff]

/-- A bit of STATUS is the disjunction of six flags, each tied to its own position. -/
theorem status_getLsbD (s : State) (k : Nat) : (status s).getLsbD k =
    (decide (k = 0) && errF s || decide (k = 1) && s.kda || decide (k = 2) && s.seedv || decide (k = 3) && s.rv0 ||
      decide (k = 4) && s.rv1 || decide (k = 5) && s.pv) := by
  simp only [status, BitVec.getLsbD_or, flagWord_getLsbD, flagWord_shiftLeft_getLsbD, Nat.reduceLT]

theorem errF_eq_decide (s : State) : errF s = decide (s.err ≠ 0) := by
  simp [errF, bne, beq_eq_decide]

/-- Settles O10: below bit 6 one position of the disjunction is the bit asked for; from bit 6 on none is. -/
theorem statusBitsAreTheFlags : Obligations.StatusBitsAreTheFlags := by
  intro s k
  rw [status_getLsbD, errF_eq_decide]
  match k with
  | 0 | 1 | 2 | 3 | 4 | 5 => simp
  | k + 6 => simp

end Sys2Proof.Machine
end

section
/-! The opcode map (30_encoding.md): the decoder against the masks and patterns of its rows (R82), and the words it
rejects (R86). -/

namespace Sys2Proof

/-! ### A decoded command's fields are the word's -/

theorem Fields.eq_mk_iff {f : Fields} {opc : BitVec 8} {z1 ch z0 prof : BitVec 2} {imm : BitVec 16} :
    f = ⟨opc, z1, ch, z0, prof, imm⟩ ↔
      f.opc = opc ∧ f.z1 = z1 ∧ f.ch = ch ∧ f.z0 = z0 ∧ f.prof = prof ∧ f.imm = imm := by
  cases f
  simp only [Fields.mk.injEq]

/-- Each line of the decoder demands of the fields what its command's encoding puts there. -/
theorem eq_encodeFields_of_decodeFields {f : Fields} {i : Instr} (h : decodeFields f = .cmd i) :
    i.wellFormed = true ∧ f = encodeFields i := by
  unfold decodeFields at h
  split at h <;>
    simp only [orStray_eq_cmd, withGen_eq_cmd, orReserved_eq_cmd, Fields.bare_iff, Bool.and_eq_true, beq_iff_eq,
      and_assoc, reduceCtorEq] at h
  case h_5 hopc => -- KD.ABS
    obtain ⟨hz1, hch, hz0, hprof, rfl⟩ := h
    exact ⟨rfl, Fields.eq_mk_iff.mpr ⟨hopc, hz1, hch, hz0, hprof, rfl⟩⟩
  case h_7 hopc | h_8 hopc => -- RNG.SEED, RNG.NEXT
    obtain ⟨hz1, hch, hz0, himm, g, hg, rfl⟩ := h
    exact ⟨rfl, Fields.eq_mk_iff.mpr ⟨hopc, hz1, hch, hz0, (genCode_of_genOf hg).symm, himm⟩⟩
  case h_11 hopc | h_12 hopc => -- CC.EMB, CC.EXT
    obtain ⟨hz1, hch, hz0, himm, hprof, rfl⟩ := h
    exact ⟨hprof, Fields.eq_mk_iff.mpr ⟨hopc, hz1, hch, hz0, rfl, himm⟩⟩
  case h_13 hopc | h_14 hopc => -- PX.EMB, PX.EXT
    obtain ⟨hz1, hz0, himm, hprof, rfl⟩ := h
    exact ⟨hprof, Fields.eq_mk_iff.mpr ⟨hopc, hz1, (channelCode_channelOf _).symm, hz0, rfl, himm⟩⟩
  case h_15 hopc => -- CV.WR
    obtain ⟨hz1, hch, hz0, hprof, himm, rfl⟩ := h
    exact ⟨rfl, Fields.eq_mk_iff.mpr ⟨hopc, hz1, hch, hz0, hprof, (setWidth_low_byte himm).symm⟩⟩
  all_goals -- the rows without operands
    obtain ⟨hz1, hch, hz0, hprof, himm, rfl⟩ := h
    exact ⟨rfl, Fields.eq_mk_iff.mpr ⟨‹_›, hz1, hch, hz0, hprof, himm⟩⟩

/-- No word but a command's own decodes to it. -/
theorem encode_of_decode {w : Word} {i : Instr} (h : decode w = .cmd i) : i.wellFormed = true ∧ encode i = w := by
  obtain ⟨hwf, hf⟩ := eq_encodeFields_of_decodeFields h
  exact ⟨hwf, by rw [encode, ← hf, joinWord_splitWord]⟩

/-! ### The rows of the opcode map -/

theorem OpcodeRow.covers_iff {r : OpcodeRow} {w : Word} :
    r.covers w = true ↔ w &&& r.mask = r.pattern ∧ (r.usesProf = true → w.extractLsb' 16 2 ≠ 3) := by
  rw [covers]
  cases r.usesProf <;> simp

/-- The laws of `Laws/PerInstr.lean`, gathered over the commands. -/
theorem covers_encode {i : Instr} (h : i.wellFormed = true) : (opcodeRow i).covers (encode i) = true :=
  match i with
  | .nop => Laws.TableRow.nop h
  | .clr => Laws.TableRow.clr h
  | .clrErr => Laws.TableRow.clrErr h
  | .kdInit => Laws.TableRow.kdInit h
  | .kdAbs k => Laws.TableRow.kdAbs k h
  | .kdFin => Laws.TableRow.kdFin h
  | .rngSeed g => Laws.TableRow.rngSeed g h
  | .rngNext g => Laws.TableRow.rngNext g h
  | .pgShuf => Laws.TableRow.pgShuf h
  | .pgRd => Laws.TableRow.pgRd h
  | .ccEmb prof bit => Laws.TableRow.ccEmb prof bit h
  | .ccExt prof => Laws.TableRow.ccExt prof h
  | .pxEmb ch prof bit => Laws.TableRow.pxEmb ch prof bit h
  | .pxExt ch prof => Laws.TableRow.pxExt ch prof h
  | .cvWr d => Laws.TableRow.cvWr d h
  | .cvRd => Laws.TableRow.cvRd h

theorem opcodeRow_mem_opcodeTable (i : Instr) : opcodeRow i ∈ opcodeTable := by
  cases i <;> simp [opcodeTable, opcodeRow]

theorem exists_opcodeRow_of_mem {r : OpcodeRow} (h : r ∈ opcodeTable) : ∃ i, opcodeRow i = r := by
  obtain ⟨i, -, hi⟩ := List.mem_map.mp h
  exact ⟨i, hi⟩

/-- Every row's mask covers `OPC`. -/
theorem opcodeTable_mask_opc : ∀ r ∈ opcodeTable, r.mask.extractLsb' 24 8 = 0xFF := by decide

/-- No two rows share an `OPC`. -/
theorem opcodeTable_opc_injective : ∀ r ∈ opcodeTable, ∀ r' ∈ opcodeTable,
    r.pattern.extractLsb' 24 8 = r'.pattern.extractLsb' 24 8 → r = r' := by decide

theorem opc_of_match {w : Word} {r : OpcodeRow} (hr : r ∈ opcodeTable) (hm : w &&& r.mask = r.pattern) :
    w.extractLsb' 24 8 = r.pattern.extractLsb' 24 8 := by
  have hand : (splitWord w).opc &&& (splitWord r.mask).opc = (splitWord r.pattern).opc :=
    congrArg Fields.opc ((and_eq_iff_fields w r.mask r.pattern).mp hm)
  have hmask : (splitWord r.mask).opc = 0xFF := opcodeTable_mask_opc r hr
  rwa [hmask, and_ones8] at hand

/-- A word matches at most one row. -/
theorem row_unique_of_match {w : Word} {r r' : OpcodeRow} (hr : r ∈ opcodeTable) (hr' : r' ∈ opcodeTable)
    (hm : w &&& r.mask = r.pattern) (hm' : w &&& r'.mask = r'.pattern) : r = r' :=
  opcodeTable_opc_injective r hr r' hr' ((opc_of_match hr hm).symm.trans (opc_of_match hr' hm'))

/-! ### The decoder accepts the words of each row -/

/-- A row without operands is one word. -/
theorem exists_decode_of_full_match {w p : Word} {i : Instr} (hm : w &&& 0xFFFFFFFF = p) (hd : decode p = .cmd i) :
    ∃ j, decode w = .cmd j := by
  have hw : w = p := (BitVec.and_allOnes (x := w)).symm.trans hm
  exact ⟨i, hw ▸ hd⟩

/-- Every mask covers `OPC` and the two must-be-zero fields; `ch`, `prof` and `imm` are what else a row fixes. -/
theorem fields_of_match (opc : BitVec 8) (ch prof : BitVec 2) (imm : BitVec 16) {w m p : Word} (hm : w &&& m = p)
    (hmask : splitWord m = ⟨0xFF, 3, ch, 3, prof, imm⟩) (hpat : splitWord p = ⟨opc, 0, 0, 0, 0, 0⟩) :
    (splitWord w).opc = opc ∧ (splitWord w).z1 = 0 ∧ (splitWord w).ch &&& ch = 0 ∧ (splitWord w).z0 = 0 ∧
      (splitWord w).prof &&& prof = 0 ∧ (splitWord w).imm &&& imm = 0 := by
  rw [and_eq_iff_fields, hmask, hpat] at hm
  simpa only [Fields.and, Fields.mk.injEq, and_ones8, and_ones2] using hm

/-- What a row's mask fixes is what the row's line of the decoder checks. -/
theorem exists_decode_of_covers {i : Instr} {w : Word} (h : (opcodeRow i).covers w = true) :
    ∃ j, decode w = .cmd j := by
  obtain ⟨hm, hp⟩ := OpcodeRow.covers_iff.mp h
  have hlegal : (opcodeRow i).usesProf = true → profLegal (splitWord w).prof = true :=
    fun hused => bne_iff_ne.mpr (hp hused)
  cases i with
  | nop | clr | clrErr | kdInit | kdFin | pgShuf | pgRd | cvRd => exact exists_decode_of_full_match hm rfl
  | kdAbs _ =>
    obtain ⟨hopc, hz1, hch, hz0, hprof, -⟩ :=
      fields_of_match 0x11 3 3 0 (m := 0xFFFF0000) (p := 0x11000000) hm (by decide) (by decide)
    rw [and_ones2] at hch hprof
    rw [decode, decodeFields, hopc]
    exact ⟨_, orStray_eq_cmd.mpr ⟨by simp [hz1, hch, hz0, hprof], rfl⟩⟩
  | rngSeed _ | rngNext _ =>
    dsimp only [opcodeRow] at hm
    obtain ⟨hopc, hz1, hch, hz0, hprof, himm⟩ := fields_of_match _ 3 2 0xFFFF hm (by decide) rfl
    rw [and_ones2] at hch
    rw [and_ones16] at himm
    obtain ⟨g, hg⟩ := Option.isSome_iff_exists.mp ((and_two_iff _).mp hprof)
    rw [decode, decodeFields, hopc]
    exact ⟨_, withGen_eq_cmd.mpr ⟨by simp [hz1, hch, hz0, himm], g, hg, rfl⟩⟩
  | ccEmb _ _ =>
    obtain ⟨hopc, hz1, hch, hz0, -, himm⟩ :=
      fields_of_match 0x40 3 0 0xFFFE (m := 0xFFFCFFFE) (p := 0x40000000) hm (by decide) (by decide)
    rw [and_ones2] at hch
    rw [and_fffe_iff] at himm
    rw [decode, decodeFields, hopc]
    exact ⟨_, orReserved_eq_cmd.mpr ⟨by simpa [hz1, hch, hz0] using himm, hlegal rfl, rfl⟩⟩
  | ccExt _ =>
    obtain ⟨hopc, hz1, hch, hz0, -, himm⟩ :=
      fields_of_match 0x41 3 0 0xFFFF (m := 0xFFFCFFFF) (p := 0x41000000) hm (by decide) (by decide)
    rw [and_ones2] at hch
    rw [and_ones16] at himm
    rw [decode, decodeFields, hopc]
    exact ⟨_, orReserved_eq_cmd.mpr ⟨by simp [hz1, hch, hz0, himm], hlegal rfl, rfl⟩⟩
  | pxEmb _ _ _ =>
    obtain ⟨hopc, hz1, -, hz0, -, himm⟩ :=
      fields_of_match 0x48 0 0 0xFFFE (m := 0xFFCCFFFE) (p := 0x48000000) hm (by decide) (by decide)
    rw [and_fffe_iff] at himm
    rw [decode, decodeFields, hopc]
    exact ⟨_, orReserved_eq_cmd.mpr ⟨by simpa [hz1, hz0] using himm, hlegal rfl, rfl⟩⟩
  | pxExt _ _ =>
    obtain ⟨hopc, hz1, -, hz0, -, himm⟩ :=
      fields_of_match 0x49 0 0 0xFFFF (m := 0xFFCCFFFF) (p := 0x49000000) hm (by decide) (by decide)
    rw [and_ones16] at himm
    rw [decode, decodeFields, hopc]
    exact ⟨_, orReserved_eq_cmd.mpr ⟨by simp [hz1, hz0, himm], hlegal rfl, rfl⟩⟩
  | cvWr _ =>
    obtain ⟨hopc, hz1, hch, hz0, hprof, himm⟩ :=
      fields_of_match 0x50 3 3 0xFF00 (m := 0xFFFFFF00) (p := 0x50000000) hm (by decide) (by decide)
    rw [and_ones2] at hch hprof
    rw [and_ff00_iff] at himm
    rw [decode, decodeFields, hopc]
    exact ⟨_, orStray_eq_cmd.mpr ⟨by simp [hz1, hch, hz0, hprof, himm], rfl⟩⟩

theorem decode_eq_cmd_of_covers {w : Word} {r : OpcodeRow} (hr : r ∈ opcodeTable) (h : r.covers w = true) :
    ∃ i, decode w = .cmd i ∧ opcodeRow i = r ∧ encode i = w := by
  obtain ⟨i, rfl⟩ := exists_opcodeRow_of_mem hr
  obtain ⟨j, hj⟩ := exists_decode_of_covers h
  obtain ⟨hwf, henc⟩ := encode_of_decode hj
  have hcov : (opcodeRow j).covers w = true := henc ▸ covers_encode hwf
  exact ⟨j, hj, row_unique_of_match (opcodeRow_mem_opcodeTable j) hr (OpcodeRow.covers_iff.mp hcov).1
    (OpcodeRow.covers_iff.mp h).1, henc⟩

/-- R82: the words that decode to a row's command are the words of the row. -/
theorem covers_iff_decode {w : Word} {r : OpcodeRow} (hr : r ∈ opcodeTable) :
    r.covers w = true ↔ ∃ i, decode w = .cmd i ∧ opcodeRow i = r ∧ encode i = w := by
  refine ⟨decode_eq_cmd_of_covers hr, ?_⟩
  rintro ⟨i, hd, rfl, rfl⟩
  exact covers_encode (encode_of_decode hd).1

/-- Settles O3: a row's masked match makes the decoder accept the word, the command it gives encodes to the word, and
rows with different `OPC` share no word. -/
theorem legalWordsAreTheTableRows : Obligations.LegalWordsAreTheTableRows := by
  refine ⟨fun w r hr => ?_, opcodeRow_mem_opcodeTable, fun w r r' hr hr' hm hm' => row_unique_of_match hr hr' hm hm'⟩
  rw [← OpcodeRow.covers_iff, covers_iff_decode hr]

/-! ### The words the decoder rejects -/

/-- A word is ILLEGAL exactly when it is a word of no row. -/
theorem decode_illegal_iff {w : Word} :
    (∃ why, decode w = .illegal why) ↔ ∀ r ∈ opcodeTable, r.covers w = false := by
  constructor
  · rintro ⟨why, hd⟩ r hr
    rw [Bool.eq_false_iff, ne_eq, covers_iff_decode hr, hd]
    simp
  · intro h
    cases hd : decode w with
    | illegal why => exact ⟨why, rfl⟩
    | cmd i =>
      have hr := opcodeRow_mem_opcodeTable i
      have hcov := (covers_iff_decode hr).mpr ⟨i, hd, rfl, (encode_of_decode hd).2⟩
      simp [h _ hr] at hcov

/-- The clauses (a), (b) and (c) of R86 say that a word is a word of no row: only the row with the word's `OPC` can
match it. -/
theorem no_row_covers_iff {w : Word} : (∀ r ∈ opcodeTable, r.covers w = false) ↔
    ((∀ r ∈ opcodeTable, w.extractLsb' 24 8 ≠ r.pattern.extractLsb' 24 8) ∨
      (∃ r ∈ opcodeTable, w.extractLsb' 24 8 = r.pattern.extractLsb' 24 8 ∧ w &&& r.mask ≠ r.pattern) ∨
      (∃ r ∈ opcodeTable, w &&& r.mask = r.pattern ∧ r.usesProf = true ∧ w.extractLsb' 16 2 = 3)) := by
  simp only [Bool.eq_false_iff, ne_eq, OpcodeRow.covers_iff]
  constructor
  · intro h
    by_cases hopc : ∃ r ∈ opcodeTable, w.extractLsb' 24 8 = r.pattern.extractLsb' 24 8
    · obtain ⟨r, hr, hopc⟩ := hopc
      by_cases hm : w &&& r.mask = r.pattern
      · exact .inr (.inr ⟨r, hr, hm, by simpa [hm] using h r hr⟩)
      · exact .inr (.inl ⟨r, hr, hopc, hm⟩)
    · exact .inl fun r hr he => hopc ⟨r, hr, he⟩
  · rintro (hno | ⟨r, hr, hopc, hm⟩ | ⟨r, hr, hm, hprof, hthree⟩) r' hr' ⟨hm', hp'⟩
    · exact hno r' hr' (opc_of_match hr' hm')
    · obtain rfl := opcodeTable_opc_injective r hr r' hr' (hopc.symm.trans (opc_of_match hr' hm'))
      exact hm hm'
    · obtain rfl := row_unique_of_match hr hr' hm hm'
      exact hp' hprof hthree

namespace Machine

theorem issueWord_illegal {w : Word} {why : Illegal} (h : decode w = .illegal why) (s : State) :
    issueWord w s = runCommand w (fun _ => some .illcmd) id s := by
  simp only [issueWord, issueWordBy, h, illegalCommand]

/-- Settles O5: an illegal word is a word of no row, which is what the three clauses say; and `runCommand` with a check
that always fails either raises `ILLCMD` or is stopped. -/
theorem illegalWordsAreListedAndRaiseIllcmd : Obligations.IllegalWordsAreListedAndRaiseIllcmd := by
  refine ⟨fun w => decode_illegal_iff.trans no_row_covers_iff, fun w why s hd => ?_⟩
  rw [issueWord_illegal hd]
  exact ⟨fun he => runCommand_raised (c := .illcmd) he rfl, fun he => runCommand_stopped he⟩

end Machine

end Sys2Proof
end

section
/-! The system commands (40_system.md): `NOP` (R100), and `CLRERR` (R102) as the inverse of error entry. -/

namespace Sys2Proof.Machine

/-! ### Error entry, and `CLRERR` as its inverse -/

/-- The writes of a command keep `ERR` = 0, so a command that ends with `ERR` ≠ 0 did error entry and nothing else. -/
theorem exec_eq_raiseErr {i : Instr} {s t : State} (he : s.err = 0) (h : exec i s = .next t) (ht : t.err ≠ 0) :
    ∃ c, t = raiseErr c (encode i) s := by
  rcases exec_cases h with ⟨rfl, _⟩ | ⟨c, _, _, _, rfl⟩ | ⟨_, hne, _⟩
  · exact absurd (commandEffect_err he) ht
  · exact ⟨c, rfl⟩
  · exact absurd he hne

/-- The same of every word, legal or not. -/
theorem issueWord_eq_raiseErr {w : Word} {s t : State} (he : s.err = 0) (h : issueWord w s = .next t)
    (ht : t.err ≠ 0) : ∃ c, t = raiseErr c w s := by
  rcases issueWordBy_cases h with ⟨i, hd, hx⟩ | ⟨_, _, ⟨_, rfl⟩ | ⟨hne, _⟩⟩
  · rw [← (encode_of_decode hd).2]
    exact exec_eq_raiseErr he hx ht
  · exact ⟨.illcmd, rfl⟩
  · exact absurd he hne

theorem exec_nop (s : State) : exec .nop s = .next s :=
  execFor_params ▸ execFor_eq_effect params (i := .nop) rfl s

theorem exec_clrErr (s : State) : exec .clrErr s = .next (clearErr s) :=
  execFor_params ▸ execFor_eq_effect params (i := .clrErr) rfl s

/-- With no error standing there is nothing to clear. -/
theorem clearErr_of_noError {s : State} (he : s.err = 0) (hc : s.errcmd = 0) : clearErr s = s := by
  cases s
  cases he
  cases hc
  rfl

/-- Error entry writes only what the return clears, whatever the host writes to ARG0 and ARG1 in between. -/
theorem clearErr_raiseErr_args (c : ErrCode) (w x y : Word) (s : State) :
    clearErr { raiseErr c w s with arg0 := x, arg1 := y } = clearErr { s with arg0 := x, arg1 := y } := rfl

/-! ### The obligations -/

/-- Settles O14: `NOP` is one of the three commands error-stop does not stop, and its writes are none. -/
theorem nopChangesNothing : Obligations.NopChangesNothing :=
  ⟨by decide, exec_nop⟩

/-- Settles O16: the faulting word did error entry only, which `CLRERR` undoes because `ERR` and `ERRCMD` were 0
before it. -/
theorem clrErrClearsTheErrorOnly : Obligations.ClrErrClearsTheErrorOnly := by
  refine ⟨by decide, exec_clrErr, fun w s t x y he hc h ht => ?_⟩
  obtain ⟨c, rfl⟩ := issueWord_eq_raiseErr he h ht
  rw [exec_clrErr, clearErr_raiseErr_args, clearErr_of_noError]
  · exact he
  · exact hc

end Sys2Proof.Machine
end

section
/-! Key derivation (41_key_derivation.md): `KD.INIT` (R112), `KD.ABS` (R111, R113) and `KD.FIN` (R114). Each command is
settled for every parameter set; the modelled block is the set `params`. -/

namespace Sys2Proof.Machine

/-! ### The operand of `KD.ABS` and the round -/

theorem encode_kdAbs_toNat (k : CodeUnit) : (encode (.kdAbs k)).toNat = 0x11000000 + k.toNat := by
  rw [encode, joinWord_toNat]
  simp [encodeFields]

/-- The code unit as a word is the only word with its value. -/
theorem codeWord_eq_of_toNat_eq {k : CodeUnit} {kw : Word} (h : kw.toNat = k.toNat) : codeWord k = kw := by
  have hval : (codeWord k).toNat = k.toNat := BitVec.toNat_setWidth_of_le (by decide)
  exact BitVec.eq_of_toNat_eq (hval.trans h.symm)

/-- The four equations of R111; the fourth takes the new first accumulator. -/
theorem kdRound_eq {P : Params} {h : Quad} {k : CodeUnit} {kw h1 h2 h3 h4 : Word} (hk : kw.toNat = k.toNat)
    (e1 : h1 = h.x2 ^^^ ((h.x1 ^^^ kw) * P.kdMul.x1)) (e2 : h2 = h.x3 ^^^ ((h.x2 ^^^ kw) * P.kdMul.x2))
    (e3 : h3 = h.x4 ^^^ ((h.x3 ^^^ kw) * P.kdMul.x3)) (e4 : h4 = h1 ^^^ ((h.x4 ^^^ kw) * P.kdMul.x4)) :
    kdRound P h k = ⟨h1, h2, h3, h4⟩ := by
  subst e4 e3 e2 e1
  rw [kdRound, codeWord_eq_of_toNat_eq hk]

/-! ### The three commands with `ERR` = 0 -/

section

variable {s : State} (he : s.err = 0)
include he

theorem execFor_kdInit (P : Params) : execFor P .kdInit s = .next (kdOpen P s) :=
  execFor_passed he rfl

theorem execFor_kdAbs_open (P : Params) (k : CodeUnit) (hd : s.kda = true) :
    execFor P (.kdAbs k) s = .next (kdAbsorb P k s) :=
  execFor_passed he (checkOpen_none hd)

theorem execFor_kdAbs_closed (P : Params) (k : CodeUnit) (hd : s.kda = false) :
    execFor P (.kdAbs k) s = .next (raiseErr .kdseq (encode (.kdAbs k)) s) :=
  execFor_raised he (checkOpen_some hd)

theorem execFor_kdFin_open (P : Params) (hd : s.kda = true) : execFor P .kdFin s = .next (kdClose P s) :=
  execFor_passed he (checkOpen_none hd)

theorem execFor_kdFin_closed (P : Params) (hd : s.kda = false) :
    execFor P .kdFin s = .next (raiseErr .kdseq (encode .kdFin) s) :=
  execFor_raised he (checkOpen_some hd)

/-- `KD.ABS` with the round written as the equations of R111. -/
theorem execFor_kdAbs_round {P : Params} {k : CodeUnit} {kw h1 h2 h3 h4 : Word} (hd : s.kda = true)
    (hk : kw.toNat = k.toNat)
    (e1 : h1 = s.h.x2 ^^^ ((s.h.x1 ^^^ kw) * P.kdMul.x1)) (e2 : h2 = s.h.x3 ^^^ ((s.h.x2 ^^^ kw) * P.kdMul.x2))
    (e3 : h3 = s.h.x4 ^^^ ((s.h.x3 ^^^ kw) * P.kdMul.x3)) (e4 : h4 = h1 ^^^ ((s.h.x4 ^^^ kw) * P.kdMul.x4)) :
    execFor P (.kdAbs k) s = .next { s with h := ⟨h1, h2, h3, h4⟩, klen := s.klen + 1 } := by
  rw [execFor_kdAbs_open he P k hd, kdAbsorb, kdRound_eq hk e1 e2 e3 e4]

end

/-! ### The obligations -/

theorem encode_kdInit : encode .kdInit = 0x10000000 := by decide

theorem encode_kdFin : encode .kdFin = 0x12000000 := by decide

/-- Settles O22: `KD.INIT` has no check, so whatever `KDA` is its writes are done. -/
theorem kdInitOpensADerivation : Obligations.KdInitOpensADerivation := by
  refine ⟨encode_kdInit, fun s he => ⟨?_, execFor_kdInit he⟩⟩
  rw [← execFor_params]
  exact execFor_kdInit he params

/-- Settles O23: with a derivation open the one check passes and the round is done; with none open it raises `KDSEQ`. -/
theorem kdAbsAbsorbsACodeUnit : Obligations.KdAbsAbsorbsACodeUnit := by
  rw [Obligations.KdAbsAbsorbsACodeUnit, ← execFor_params]
  exact ⟨encode_kdAbs_toNat, fun _ _ _ _ _ _ _ he => execFor_kdAbs_round he,
    fun _ _ _ _ _ _ _ _ he => execFor_kdAbs_round he,
    fun k _ he hd => ⟨execFor_kdAbs_closed he params k hd, fun P => execFor_kdAbs_closed he P k hd⟩⟩

/-- Settles O24: the check is that of `KD.ABS`; the finalisation of `params` is the identity, so the modelled block's
seeds are the accumulators. -/
theorem kdFinMakesTheSeeds : Obligations.KdFinMakesTheSeeds := by
  rw [Obligations.KdFinMakesTheSeeds, ← execFor_params, ← encode_kdFin]
  exact ⟨rfl, fun s he => ⟨execFor_kdFin_open he params, execFor_kdFin_closed he params,
    fun P => ⟨execFor_kdFin_open he P, execFor_kdFin_closed he P⟩⟩⟩

end Sys2Proof.Machine
end

section
/-! The generators (42_rng.md): `RNG.SEED` (R132) and `RNG.NEXT` (R131, R133). Each command is settled for either
generator and every parameter set; the modelled block is the set `params`. -/

namespace Sys2Proof.Machine

/-! ### The command words -/

theorem encode_rngSeed_g0 : encode (.rngSeed .g0) = 0x20000000 := by decide

theorem encode_rngSeed_g1 : encode (.rngSeed .g1) = 0x20010000 := by decide

theorem encode_rngNext_g0 : encode (.rngNext .g0) = 0x21000000 := by decide

theorem encode_rngNext_g1 : encode (.rngNext .g1) = 0x21010000 := by decide

/-! ### The writes, generator by generator -/

theorem seedGen_g0 (s : State) : seedGen .g0 s = { s with a0 := s.arg0, rv0 := true } := rfl

theorem seedGen_g1 (s : State) : seedGen .g1 s = { s with a1 := s.arg0, rv1 := true } := rfl

theorem drawGen_g0 (P : Params) (s : State) :
    drawGen P .g0 s = { s with a0 := s.a0 + P.rngInc, res := P.rngOut (s.a0 + P.rngInc) } := rfl

theorem drawGen_g1 (P : Params) (s : State) :
    drawGen P .g1 s = { s with a1 := s.a1 + P.rngInc, res := P.rngOut (s.a1 + P.rngInc) } := rfl

/-! ### The two commands with `ERR` = 0 -/

section

variable {s : State} (he : s.err = 0)
include he

theorem execFor_rngSeed (P : Params) (g : Gen) : execFor P (.rngSeed g) s = .next (seedGen g s) :=
  execFor_passed he rfl

theorem execFor_rngNext_seeded (P : Params) {g : Gen} (hv : genSeeded g s = true) :
    execFor P (.rngNext g) s = .next (drawGen P g s) :=
  execFor_passed he (checkSeeded_none hv)

theorem execFor_rngNext_unseeded (P : Params) {g : Gen} (hv : genSeeded g s = false) :
    execFor P (.rngNext g) s = .next (raiseErr .norng (encode (.rngNext g)) s) :=
  execFor_raised he (checkSeeded_some hv)

/-- `RNG.NEXT` of both generators, seeded or not, with the writes of R133 spelled out. -/
theorem execFor_rngNext_both (P : Params) :
    (s.rv0 = true → execFor P (.rngNext .g0) s = .next
      { s with a0 := s.a0 + P.rngInc, res := P.rngOut (s.a0 + P.rngInc) }) ∧
    (s.rv1 = true → execFor P (.rngNext .g1) s = .next
      { s with a1 := s.a1 + P.rngInc, res := P.rngOut (s.a1 + P.rngInc) }) ∧
    (s.rv0 = false → execFor P (.rngNext .g0) s = .next { s with err := 3, errcmd := 0x21000000 }) ∧
    (s.rv1 = false → execFor P (.rngNext .g1) s = .next { s with err := 3, errcmd := 0x21010000 }) := by
  rw [← drawGen_g0, ← drawGen_g1, ← encode_rngNext_g0, ← encode_rngNext_g1]
  exact ⟨execFor_rngNext_seeded he P (g := .g0), execFor_rngNext_seeded he P (g := .g1),
    execFor_rngNext_unseeded he P (g := .g0), execFor_rngNext_unseeded he P (g := .g1)⟩

end

/-! ### The obligations -/

/-- Settles O26: `RNG.SEED` has no check, so its writes are done whether or not the generator was seeded before. -/
theorem rngSeedSeedsOneGenerator : Obligations.RngSeedSeedsOneGenerator := by
  refine ⟨encode_rngSeed_g0, encode_rngSeed_g1, fun s he => ?_⟩
  rw [← seedGen_g0, ← seedGen_g1, ← execFor_params]
  exact ⟨execFor_rngSeed he params .g0, execFor_rngSeed he params .g1⟩

/-- Settles O27: the one check is that the generator is seeded; passed, the draw of R131 is done, failed, it raises
`NORNG`. The modelled block is one of the parameter sets. -/
theorem rngNextDraws : Obligations.RngNextDraws := by
  rw [Obligations.RngNextDraws, ← execFor_params]
  refine ⟨encode_rngNext_g0, encode_rngNext_g1, fun s he => ?_⟩
  obtain ⟨hdraw0, hdraw1, hunseeded0, hunseeded1⟩ := execFor_rngNext_both he params
  exact ⟨hdraw0, hdraw1, hunseeded0, hunseeded1, execFor_rngNext_both he⟩

end Sys2Proof.Machine
end

section
/-! The permutation generator (43_permutation.md): the shuffle (R151, R154, R158), and `PG.SHUF` (R152, R156, R159) and
`PG.RD` (R153). Each command is settled for every parameter set; the modelled block is the set `params`. -/

namespace Sys2Proof.Machine

/-! ### The shuffle's index -/

theorem mulhi_eq_floor (u : Word) (m : Nat) : ((mulhi u m : Nat) : Int) = ⌊(u.toNat : ℚ) / 2 ^ 32 * m⌋ := by
  have hq : (u.toNat : ℚ) / 2 ^ 32 * m = (u.toNat * m : Nat) / (2 ^ 32 : Nat) := by
    push_cast
    ring
  rw [hq, Rat.floor_natCast_div_natCast, mulhi, Int.natCast_ediv]

theorem mulhi_succ_le (u : Word) (i : Nat) : mulhi u (i + 1) ≤ i :=
  Nat.lt_succ_iff.1 (mulhi_lt u i.succ_pos)

theorem mulhi_zero (m : Nat) : mulhi 0 m = 0 := by
  simp [mulhi]

/-- The largest draw gives the largest index: of the quotient of `(2^32 - 1) x (i+1)` only the last unit is lost. -/
theorem mulhi_allOnes {i : Nat} (hi : i + 1 ≤ 1048576) : mulhi 0xFFFFFFFF (i + 1) = i := by
  have hu : (0xFFFFFFFF : Word).toNat = 4294967295 := rfl
  rw [mulhi, hu]
  omega

/-- Settles O31: the model's quotient of naturals is the rational floor; the draw is below 2^32, which keeps it at
most `i`. -/
theorem shuffleIndexIsTheExactFloor : Obligations.ShuffleIndexIsTheExactFloor := by
  intro u i
  have hfloor := mulhi_eq_floor u (i + 1)
  rw [Nat.cast_succ] at hfloor
  refine ⟨hfloor, mulhi_succ_le u i, ?_, ?_⟩
  · rintro rfl
    exact mulhi_zero _
  · rintro rfl
    exact mulhi_allOnes

/-! ### The loop -/

/-- A swap inside the list is two writes. -/
theorem swapAt_eq_set {i j : Nat} {p : List Nat} (hi : i < p.length) (hj : j < p.length) :
    swapAt i j p = (p.set i (p[j]?.getD 0)).set j (p[i]?.getD 0) := by
  simp only [swapAt, List.getElem?_eq_getElem hi, List.getElem?_eq_getElem hj, Option.getD_some]

/-- The iteration `i` of 43_permutation.md R151 on the array and the state word: one draw `U` and the writes that swap
positions `i` and `floor(U x (i+1) / 2^32)`. -/
def fyIteration (P : Params) (x : List Nat × Word) (i : Nat) : List Nat × Word :=
  let a := x.2 + P.rngInc
  let j := (P.rngOut a).toNat * (i + 1) / 2 ^ 32
  ((x.1.set i (x.1[j]?.getD 0)).set j (x.1[i]?.getD 0), a)

/-- Of the iteration `i` both positions lie inside the array when `i` does. -/
theorem fyIteration_eq_swapAt (P : Params) {i : Nat} (a : Word) {p : List Nat} (hi : i < p.length) :
    fyIteration P (p, a) i = (swapAt i (mulhi (rngStep P a).2 (i + 1)) p, (rngStep P a).1) :=
  Prod.ext (swapAt_eq_set hi ((mulhi_succ_le _ i).trans_lt hi)).symm rfl

/-- The loop from `i` down to 1 is the fold of its iterations. -/
theorem fyLoop_eq_foldl (P : Params) {i : Nat} (a : Word) {p : List Nat} (hi : i ≤ p.length - 1) :
    fyLoop P i a p = (List.range' 1 i).reverse.foldl (fyIteration P) (p, a) := by
  induction i generalizing a p with
  | zero => rfl
  | succ i ih =>
    have hlt : i + 1 < p.length := by omega
    have hrest : i ≤ (swapAt (i + 1) (mulhi (rngStep P a).2 (i + 2)) p).length - 1 := by
      rw [swapAt_length]
      omega
    rw [fyLoop, ih _ hrest, List.range'_1_concat, List.reverse_concat, List.foldl_cons, Nat.add_comm 1 i,
      fyIteration_eq_swapAt P a hlt]

/-- The loop only reorders the array: each iteration swaps two positions inside it. -/
theorem fyLoop_perm (P : Params) {i : Nat} (a : Word) {p : List Nat} (hi : i ≤ p.length - 1) :
    (fyLoop P i a p).1.Perm p := by
  induction i generalizing a p with
  | zero => rfl
  | succ i ih =>
    have hlt : i + 1 < p.length := by omega
    have hswap : (swapAt (i + 1) (mulhi (rngStep P a).2 (i + 2)) p).Perm p :=
      swapAt_perm hlt ((mulhi_succ_le _ (i + 1)).trans_lt hlt)
    have hrest : i ≤ (swapAt (i + 1) (mulhi (rngStep P a).2 (i + 2)) p).length - 1 := by
      rw [swapAt_length]
      omega
    exact (ih _ hrest).trans hswap

theorem fy_perm (P : Params) (n : Nat) (seed : Word) : (fy P n seed).1.Perm (List.range n) :=
  fyLoop_perm P seed (by rw [List.length_range])

/-- Settles O30: the recursion of the model peels the iterations off in the order of the fold, and each swaps positions
inside the array, where a swap is two writes. -/
theorem shuffleIsTheDescendingFisherYates : Obligations.ShuffleIsTheDescendingFisherYates := by
  intro P n seed _
  exact fyLoop_eq_foldl P seed (by rw [List.length_range])

/-! ### PERM after `PG.SHUF` -/

/-- An entry of the shuffle is below `n`. -/
theorem fy_getElem_lt (P : Params) {n q : Nat} (seed : Word) (hq : q < (fy P n seed).1.length) :
    (fy P n seed).1[q] < n :=
  List.mem_range.1 ((fy_perm P n seed).mem_iff.1 (List.getElem_mem hq))

/-- With `n` at most `NMAX` an entry of PERM holds an entry of the shuffle whole. -/
theorem fy_getElem?_eq_permRead_shuffle (P : Params) {s : State} (hn : s.arg0.toNat ≤ 1048576) {q : Nat}
    (hq : q < s.arg0.toNat) :
    (fy P s.arg0.toNat s.arg1).1[q]? = some (permRead (shuffle P s) q).toNat := by
  have hlen : q < (fy P s.arg0.toNat s.arg1).1.length := by rwa [fy_length]
  have hfits : (fy P s.arg0.toNat s.arg1).1[q] < 2 ^ 20 := (fy_getElem_lt P s.arg1 hlen).trans_le hn
  rw [permRead_shuffle_lt hq, BitVec.toNat_ofNat, Nat.mod_eq_of_lt hfits, List.getElem?_eq_getElem hlen]

/-- A permutation of `[0, n)` holds each value below `n` at exactly one index. -/
theorem existsUnique_getElem?_of_perm_range {p : List Nat} {n q : Nat} (hp : p.Perm (List.range n)) (hq : q < n) :
    ∃! i, i < n ∧ p[i]? = some q := by
  have hlen : p.length = n := hp.length_eq.trans List.length_range
  have hnodup : p.Nodup := hp.nodup_iff.2 List.nodup_range
  obtain ⟨i, hi⟩ := List.mem_iff_getElem?.1 (hp.mem_iff.2 (List.mem_range.2 hq))
  have hin : i < n := hlen ▸ (List.getElem?_eq_some_iff.1 hi).1
  refine ⟨i, ⟨hin, hi⟩, fun k ⟨hkn, hk⟩ => ?_⟩
  exact (List.getElem?_inj (hlen ▸ hkn) hnodup).1 (hk.trans hi.symm)

theorem shuffle_permValid (P : Params) {s : State} (hn : s.arg0.toNat ≤ 1048576) : PermValid (shuffle P s) := by
  intro q hq
  rw [shuffle_npix] at hq ⊢
  have hread : ∀ i, (i < s.arg0.toNat ∧ (permRead (shuffle P s) i).toNat = q) ↔
      (i < s.arg0.toNat ∧ (fy P s.arg0.toNat s.arg1).1[i]? = some q) := fun i =>
    and_congr_right fun hi => by rw [fy_getElem?_eq_permRead_shuffle P hn hi, Option.some_inj]
  simp only [hread]
  exact existsUnique_getElem?_of_perm_range (fy_perm P _ _) hq

/-! ### `PG.SHUF` with `ERR` = 0 -/

theorem encode_pgShuf : encode .pgShuf = 0x30000000 := by decide

/-- The modelled block and the block with the set `P`, under one name. -/
theorem execution_eq_execFor {P : Params} {ex : Execution} (hex : ex = execFor P ∨ P = params ∧ ex = exec) :
    ex = execFor P := by
  rcases hex with rfl | ⟨rfl, rfl⟩
  · rfl
  · exact execFor_params.symm

section

variable {s : State} (he : s.err = 0)
include he

theorem execFor_pgShuf_fits (P : Params) (hn : s.arg0.toNat ≤ 1048576) :
    execFor P .pgShuf s = .next (shuffle P s) :=
  execFor_passed he (checkFits_none hn)

theorem execFor_pgShuf_range (P : Params) (hn : 1048576 < s.arg0.toNat) :
    execFor P .pgShuf s = .next (raiseErr .range (encode .pgShuf) s) :=
  execFor_raised he (checkFits_some hn)

/-- `PG.SHUF` succeeds only by its writes, with `n` at most `NMAX`. -/
theorem eq_shuffle_of_success {P : Params} {t : State} (h : execFor P .pgShuf s = .next t) (ht : t.err = 0) :
    s.arg0.toNat ≤ 1048576 ∧ t = shuffle P s := by
  rcases Nat.lt_or_ge 1048576 s.arg0.toNat with hn | hn
  · rw [execFor_pgShuf_range he P hn] at h
    injection h with h
    subst h
    exact absurd ht (errCode_ne_zero .range)
  · rw [execFor_pgShuf_fits he P hn] at h
    injection h with h
    exact ⟨hn, h.symm⟩

theorem permValid_of_success {P : Params} {t : State} (h : execFor P .pgShuf s = .next t) (ht : t.err = 0) :
    PermValid t := by
  obtain ⟨hn, rfl⟩ := eq_shuffle_of_success he h ht
  exact shuffle_permValid P hn

/-- The registers and flags that `PG.SHUF` writes, and the entries of PERM (43_permutation.md R152). -/
theorem execFor_pgShuf_stores (P : Params) (hn : s.arg0.toNat ≤ 1048576) : ∃ t, execFor P .pgShuf s = .next t ∧
    t = { s with perm := t.perm, npix := s.arg0, a0 := (fy P s.arg0.toNat s.arg1).2, rv0 := true, pv := true } ∧
    ∀ q < s.arg0.toNat, (fy P s.arg0.toNat s.arg1).1[q]? = some (permRead t q).toNat :=
  ⟨shuffle P s, execFor_pgShuf_fits he P hn, rfl, fun _ => fy_getElem?_eq_permRead_shuffle P hn⟩

end

/-! ### `PG.SHUF` with `n` = 0 and `n` = 1 -/

/-- With `n` = 0 no entry is written and no draw is taken. -/
theorem shuffle_of_arg0_zero (P : Params) {s : State} (h0 : s.arg0 = 0) :
    shuffle P s = { s with npix := 0, a0 := s.arg1, rv0 := true, pv := true } := by
  have hfy : fy P (arg0Nat s) s.arg1 = ([], s.arg1) := by rw [arg0Nat, h0]; rfl
  rw [← h0, shuffle, hfy]
  rfl

/-- With `n` = 1 the loop has no iteration, so no draw is taken. -/
theorem shuffle_of_arg0_one (P : Params) {s : State} (h1 : s.arg0 = 1) :
    shuffle P s = { s with perm := (shuffle P s).perm, npix := 1, a0 := s.arg1, rv0 := true, pv := true } := by
  have hfy : fy P (arg0Nat s) s.arg1 = ([0], s.arg1) := by rw [arg0Nat, h1]; rfl
  rw [← h1, shuffle, hfy]
  rfl

theorem permRead_shuffle_of_arg0_one (P : Params) {s : State} (h1 : s.arg0 = 1) : permRead (shuffle P s) 0 = 0 := by
  rw [permRead_shuffle_lt (by rw [h1]; decide)]
  simp only [h1]
  rfl

/-! ### Positions: `PG.RD`, `PX.EMB`, `PX.EXT` -/

theorem encode_pgRd : encode .pgRd = 0x31000000 := by decide

/-- The commands that take a position (43_permutation.md R156), each profile legal. -/
def TakesPosition (i : Instr) : Prop :=
  i = .pgRd ∨ (∃ ch p bit, i = .pxEmb ch (profileCode p) bit) ∨ ∃ ch p, i = .pxExt ch (profileCode p)

theorem commandCheck_of_takesPosition {i : Instr} (hi : TakesPosition i) (s : State) :
    commandCheck i s = checkPosition s := by
  rcases hi with rfl | ⟨ch, p, bit, rfl⟩ | ⟨ch, p, rfl⟩
  · rfl
  · rw [commandCheck, profileOf_profileCode, Option.elim_some]
  · rw [commandCheck, profileOf_profileCode, Option.elim_some]

section

variable {s : State} (he : s.err = 0)
include he

theorem execFor_pgRd_reads (P : Params) (hp : s.pv = true) (hi : s.arg0.toNat < s.npix.toNat) :
    execFor P .pgRd s = .next (readPerm s) :=
  execFor_passed he (checkPosition_none hp hi)

theorem execFor_pgRd_noperm (P : Params) (hp : s.pv = false) :
    execFor P .pgRd s = .next (raiseErr .noperm (encode .pgRd) s) :=
  execFor_raised he (checkPosition_noperm hp)

theorem execFor_pgRd_index (P : Params) (hp : s.pv = true) (hi : s.npix.toNat ≤ s.arg0.toNat) :
    execFor P .pgRd s = .next (raiseErr .index (encode .pgRd) s) :=
  execFor_raised he (checkPosition_index hp hi)

/-- With no pixels every position is outside the permutation. -/
theorem execFor_position_of_npix_zero (P : Params) {i : Instr} (hi : TakesPosition i) (hp : s.pv = true)
    (h0 : s.npix = 0) : execFor P i s = .next (raiseErr .index (encode i) s) := by
  have hout : s.npix.toNat ≤ s.arg0.toNat := by simp [h0]
  exact execFor_raised he ((commandCheck_of_takesPosition hi s).trans (checkPosition_index hp hout))

end

/-! ### The obligations on the two commands -/

/-- Settles O32: the loop starts from the identity sequence and each iteration only swaps two positions inside it; a
successful `PG.SHUF` has `n` at most `NMAX`, so PERM holds the entries whole. -/
theorem shuffleIsAPermutation : Obligations.ShuffleIsAPermutation := by
  rw [Obligations.ShuffleIsAPermutation, ← execFor_params]
  exact ⟨fy_perm, fun _ _ he => permValid_of_success he, fun _ _ _ he => permValid_of_success he⟩

/-- Settles O33: the one check is the range of `n`; passed, the writes are those of R152, failed, it raises `RANGE`. -/
theorem pgShufStoresTheShuffle : Obligations.PgShufStoresTheShuffle := by
  rw [Obligations.PgShufStoresTheShuffle, ← execFor_params, ← encode_pgShuf]
  exact ⟨rfl, fun s he => ⟨execFor_pgShuf_stores he params, execFor_pgShuf_range he params,
    fun P => ⟨execFor_pgShuf_stores he P, execFor_pgShuf_range he P⟩⟩⟩

/-- Settles O35: the loop is empty for both; after `n` = 0 `NPIX` is 0, so no position passes the check the three
commands share. -/
theorem shuffleOfZeroAndOne : Obligations.ShuffleOfZeroAndOne := by
  intro s he
  rw [← execFor_params]
  refine ⟨fun h0 => ?_, fun h1 => ?_⟩
  · have hshuf : execFor params .pgShuf s = .next (shuffle params s) :=
      execFor_pgShuf_fits he params (by rw [h0]; decide)
    rw [shuffle_of_arg0_zero params h0] at hshuf
    refine ⟨_, hshuf, rfl, fun x i hi => ⟨_, execFor_position_of_npix_zero ?_ params hi rfl rfl, rfl⟩⟩
    exact he
  · exact ⟨_, execFor_pgShuf_fits he params (by rw [h1]; decide), shuffle_of_arg0_one params h1,
      permRead_shuffle_of_arg0_one params h1⟩

/-- Settles O36: a success has `n` at most `NMAX`, which is a condition on `ARG0`; then both states do the writes of the
one shuffle. -/
theorem shuffleIsDeterminedByNAndSeed : Obligations.ShuffleIsDeterminedByNAndSeed := by
  intro P ex s s' t t' hex he he' h0 h1 h h' ht
  obtain rfl := execution_eq_execFor hex
  obtain ⟨hn, rfl⟩ := eq_shuffle_of_success he h ht
  have hshuf' : execFor P .pgShuf s' = .next (shuffle P s') := execFor_pgShuf_fits he' P (h0 ▸ hn)
  obtain rfl := Host.Outcome.next.inj (hshuf'.symm.trans h')
  refine ⟨(shuffle_err P s').trans he', ?_, ?_, fun q hq => ?_⟩
  · rw [shuffle_npix, shuffle_npix, h0]
  · rw [shuffle_a0, shuffle_a0, arg0Nat, arg0Nat, h0, h1]
  · simp only [permRead_shuffle_lt hq, permRead_shuffle_lt (h0 ▸ hq), h0, h1]

/-- Settles O37: the check takes the permutation's validity first and then the position; passed, the one write is the
entry, whose 20 bits fit `RES`. -/
theorem pgRdReadsAnEntry : Obligations.PgRdReadsAnEntry := by
  rw [Obligations.PgRdReadsAnEntry, ← execFor_params, ← encode_pgRd]
  refine ⟨rfl, fun s he => ⟨fun hp hi => ?_, execFor_pgRd_noperm he params, execFor_pgRd_index he params⟩⟩
  exact ⟨_, BitVec.toNat_setWidth_of_le (by decide), execFor_pgRd_reads he params hp hi⟩

end Sys2Proof.Machine
end

section
/-! The channel codec (44_channel_codec.md): `CC.EMB` (R171, R174) and `CC.EXT` (R172, R175). Each command is settled for
every legal profile at once; the formulas of the three profiles are facts about bytes. -/

namespace Sys2Proof.Machine

/-! ### The command words -/

theorem bitCode_toNat (bit : Bool) : (bitCode bit).toNat = if bit then 1 else 0 := by cases bit <;> rfl

theorem encode_ccEmb_toNat (prof : BitVec 2) (bit : Bool) :
    (encode (.ccEmb prof bit)).toNat = 0x40000000 + prof.toNat * 2 ^ 16 + (if bit then 1 else 0) := by
  rw [encode, joinWord_toNat, ← bitCode_toNat]
  simp [encodeFields]

theorem encode_ccExt_toNat (prof : BitVec 2) :
    (encode (.ccExt prof)).toNat = 0x41000000 + prof.toNat * 2 ^ 16 := by
  rw [encode, joinWord_toNat]
  simp [encodeFields]

theorem decode_encode_ccEmb_three (bit : Bool) :
    decode (encode (.ccEmb 3 bit)) = .illegal .reservedProfile := by
  cases bit <;> decide

theorem decode_encode_ccExt_three : decode (encode (.ccExt 3)) = .illegal .reservedProfile := by decide

theorem issueWord_illegal_raises {w : Word} {why : Illegal} {s : State} (hd : decode w = .illegal why)
    (he : s.err = 0) : issueWord w s = .next (raiseErr .illcmd w s) := by
  rw [issueWord_illegal hd, runCommand_raised he rfl]

/-! ### The carrier byte and the results -/

/-- The carrier byte is the only byte with the value of ARG0's low eight bits. -/
theorem carrierByte_eq_of_toNat_eq {s : State} {b : Byte} (hb : b.toNat = s.arg0.toNat % 256) : carrierByte s = b := by
  apply BitVec.eq_of_toNat_eq
  rw [hb, carrierByte, BitVec.extractLsb'_toNat, Nat.shiftRight_zero]

theorem byteResult_embedBit_sentinel (b : Byte) (bit : Bool) :
    byteResult (embedBit .sentinel b bit) = if bit then 255 else 254 := by
  cases bit <;> rfl

theorem byteResult_embedBit_fullValue (b : Byte) (bit : Bool) :
    byteResult (embedBit .fullValue b bit) = if bit then 255 else 0 := by
  cases bit <;> rfl

/-- Bit 0 as a result is the byte's parity. -/
theorem bitResult_extractBit_lsb (b : Byte) : bitResult (extractBit .lsb b) = BitVec.ofNat 32 (b.toNat % 2) := by
  rw [extractBit, BitVec.getLsbD, Nat.testBit_zero]
  rcases Nat.mod_two_eq_zero_or_one b.toNat with h | h <;> rw [h] <;> rfl

/-- Sentinel and Full-value read alike. -/
theorem bitResult_beq_255 (b : Byte) : bitResult (b == 255) = if b = 255 then 1 else 0 := by
  simp only [bitResult, beq_iff_eq]

/-! ### The two commands with `ERR` = 0 -/

section

variable {s : State} {b : Byte} (he : s.err = 0) (hb : b.toNat = s.arg0.toNat % 256)
include he hb

theorem exec_ccEmb (p : Profile) (bit : Bool) :
    exec (.ccEmb (profileCode p) bit) s = .next { s with res := byteResult (embedBit p b bit) } := by
  have hcheck : commandCheck (.ccEmb (profileCode p) bit) s = none := by
    rw [commandCheck, profileOf_profileCode, Option.elim_some]
  rw [exec_passed he hcheck, commandEffect, profileOf_profileCode, Option.elim_some, ccEmbed,
    carrierByte_eq_of_toNat_eq hb, setRes]

theorem exec_ccExt (p : Profile) :
    exec (.ccExt (profileCode p)) s = .next { s with res := bitResult (extractBit p b) } := by
  have hcheck : commandCheck (.ccExt (profileCode p)) s = none := by
    rw [commandCheck, profileOf_profileCode, Option.elim_some]
  rw [exec_passed he hcheck, commandEffect, profileOf_profileCode, Option.elim_some, ccExtract,
    carrierByte_eq_of_toNat_eq hb, setRes]

end

/-! ### The obligations -/

/-- Settles O38: a legal profile passes the one check and the embedding of the carrier byte is written; the decoder
rejects `PROF` = 3. -/
theorem ccEmbEmbedsInTheOperandByte : Obligations.CcEmbEmbedsInTheOperandByte := by
  refine ⟨encode_ccEmb_toNat, fun bit s b he hb => ?_⟩
  rw [← byteResult_embedBit_sentinel b, ← byteResult_embedBit_fullValue b]
  exact ⟨exec_ccEmb he hb .lsb bit, exec_ccEmb he hb .sentinel bit, exec_ccEmb he hb .fullValue bit,
    issueWord_illegal_raises (decode_encode_ccEmb_three bit) he⟩

/-- Settles O39: a legal profile passes the one check and the bit of the carrier byte is written; the decoder rejects
`PROF` = 3. -/
theorem ccExtExtractsFromTheOperandByte : Obligations.CcExtExtractsFromTheOperandByte := by
  refine ⟨encode_ccExt_toNat, fun s b he hb => ?_⟩
  rw [← bitResult_extractBit_lsb, ← bitResult_beq_255]
  exact ⟨exec_ccExt he hb .lsb, exec_ccExt he hb .sentinel, exec_ccExt he hb .fullValue,
    issueWord_illegal_raises decode_encode_ccExt_three he⟩

end Sys2Proof.Machine
end

section
/-! The canvas commands (45_canvas.md): `PX.EMB` (R192), `PX.EXT` (R193), `CV.WR` (R194) and `CV.RD` (R195). Each command
is its check, one of two, and its write: a position is checked for all commands that take one at once, and what a write
leaves in CANVAS is stated of the write alone. -/

namespace Sys2Proof.Machine

/-! ### The command words -/

theorem encode_pxEmb_toNat (ch : Channel) (prof : BitVec 2) (bit : Bool) :
    (encode (.pxEmb ch prof bit)).toNat =
      0x48000000 + (channelCode ch).toNat * 2 ^ 20 + prof.toNat * 2 ^ 16 + (if bit then 1 else 0) := by
  rw [encode, joinWord_toNat, ← bitCode_toNat]
  simp [encodeFields]

theorem encode_pxExt_toNat (ch : Channel) (prof : BitVec 2) :
    (encode (.pxExt ch prof)).toNat = 0x49000000 + (channelCode ch).toNat * 2 ^ 20 + prof.toNat * 2 ^ 16 := by
  rw [encode, joinWord_toNat]
  simp [encodeFields]

theorem encode_cvWr_toNat (d : Byte) : (encode (.cvWr d)).toNat = 0x50000000 + d.toNat := by
  have hd : (d.setWidth 16).toNat = d.toNat := BitVec.toNat_setWidth_of_le (by decide)
  rw [encode, joinWord_toNat, ← hd]
  simp [encodeFields]

theorem encode_cvRd : encode .cvRd = 0x51000000 := by decide

theorem decode_encode_pxEmb_three (ch : Channel) (bit : Bool) :
    decode (encode (.pxEmb ch 3 bit)) = .illegal .reservedProfile := by
  rw [decode, splitWord_encode]
  simp only [encodeFields, decodeFields, bitCode_getLsbD, beq_self_eq_true]
  rfl

theorem decode_encode_pxExt_three (ch : Channel) : decode (encode (.pxExt ch 3)) = .illegal .reservedProfile := by
  rw [decode, splitWord_encode]
  rfl

/-! ### The writes -/

/-- `PX.EMB` writes `RES` and CANVAS only. -/
theorem pxEmbed_frame (ch : Channel) (p : Profile) (bit : Bool) (s : State) :
    pxEmbed ch p bit s = { s with
      canvas := (pxEmbed ch p bit s).canvas
      res := byteResult (embedBit p (memRead s (selectedAddr ch s)) bit) } := rfl

theorem memRead_pxEmbed_selected (ch : Channel) (p : Profile) (bit : Bool) (s : State) :
    memRead (pxEmbed ch p bit s) (selectedAddr ch s) = embedBit p (memRead s (selectedAddr ch s)) bit := by
  rw [pxEmbed, memRead_setRes, memRead_memWrite_self]

theorem memRead_pxEmbed_other {ch : Channel} {s : State} {b : Nat} (hb : b ≠ selectedAddr ch s) (p : Profile)
    (bit : Bool) : memRead (pxEmbed ch p bit s) b = memRead s b := by
  rw [pxEmbed, memRead_setRes, memRead_memWrite_other hb]

/-- `CV.WR` writes CANVAS only. -/
theorem canvasPoke_frame (d : Byte) (s : State) : canvasPoke d s = { s with canvas := (canvasPoke d s).canvas } := rfl

theorem memRead_canvasPoke_self (d : Byte) (s : State) : memRead (canvasPoke d s) s.arg0.toNat = d :=
  memRead_memWrite_self _ d s

theorem memRead_canvasPoke_other {s : State} {b : Nat} (hb : b ≠ s.arg0.toNat) (d : Byte) :
    memRead (canvasPoke d s) b = memRead s b :=
  memRead_memWrite_other hb d s

/-! ### The commands with `ERR` = 0 -/

section

variable {s : State} (he : s.err = 0)
include he

/-- Without a valid permutation no position is taken. -/
theorem exec_position_noperm {i : Instr} (hi : TakesPosition i) (hp : s.pv = false) :
    exec i s = .next (raiseErr .noperm (encode i) s) :=
  exec_raised he ((commandCheck_of_takesPosition hi s).trans (checkPosition_noperm hp))

theorem exec_position_index {i : Instr} (hi : TakesPosition i) (hp : s.pv = true) (hn : s.npix.toNat ≤ s.arg0.toNat) :
    exec i s = .next (raiseErr .index (encode i) s) :=
  exec_raised he ((commandCheck_of_takesPosition hi s).trans (checkPosition_index hp hn))

/-- With a valid permutation and a position below `NPIX` the write of the command is done. -/
theorem exec_position_passed {i : Instr} (hi : TakesPosition i) (hp : s.pv = true) (hn : s.arg0.toNat < s.npix.toNat) :
    exec i s = .next (commandEffect params i s) :=
  exec_passed he ((commandCheck_of_takesPosition hi s).trans (checkPosition_none hp hn))

theorem exec_pxEmb (ch : Channel) (p : Profile) (bit : Bool) (hp : s.pv = true) (hn : s.arg0.toNat < s.npix.toNat) :
    exec (.pxEmb ch (profileCode p) bit) s = .next (pxEmbed ch p bit s) := by
  rw [exec_position_passed he (.inr (.inl ⟨ch, p, bit, rfl⟩)) hp hn, commandEffect, profileOf_profileCode,
    Option.elim_some]

theorem exec_pxExt (ch : Channel) (p : Profile) (hp : s.pv = true) (hn : s.arg0.toNat < s.npix.toNat) :
    exec (.pxExt ch (profileCode p)) s = .next (pxExtract ch p s) := by
  rw [exec_position_passed he (.inr (.inr ⟨ch, p, rfl⟩)) hp hn, commandEffect, profileOf_profileCode,
    Option.elim_some]

theorem exec_cvWr (d : Byte) (ha : s.arg0.toNat < 4194304) : exec (.cvWr d) s = .next (canvasPoke d s) :=
  exec_passed he (checkAddr_none ha)

theorem exec_cvWr_addr (d : Byte) (ha : 4194304 ≤ s.arg0.toNat) :
    exec (.cvWr d) s = .next (raiseErr .addr (encode (.cvWr d)) s) :=
  exec_raised he (checkAddr_some ha)

theorem exec_cvRd (ha : s.arg0.toNat < 4194304) : exec .cvRd s = .next (canvasPeek s) :=
  exec_passed he (checkAddr_none ha)

theorem exec_cvRd_addr (ha : 4194304 ≤ s.arg0.toNat) : exec .cvRd s = .next (raiseErr .addr (encode .cvRd) s) :=
  exec_raised he (checkAddr_some ha)

end

/-! ### The obligations -/

/-- Settles O41: the position passes the one check and the write stores at the selected address alone, whose old byte the
embedding takes; the check's two errors come before any write, and the decoder rejects `PROF` = 3. -/
theorem pxEmbEmbedsInTheSelectedByte : Obligations.PxEmbEmbedsInTheSelectedByte := by
  refine ⟨encode_pxEmb_toNat, ?_, ?_, ?_⟩
  · rintro ch p bit s _ _ he hp hn rfl rfl
    exact ⟨_, exec_pxEmb he ch p bit hp hn, pxEmbed_frame ch p bit s, memRead_pxEmbed_selected ch p bit s,
      fun b hb => memRead_pxEmbed_other hb p bit⟩
  · rintro ch p bit s _ he rfl
    have hi : TakesPosition (.pxEmb ch (profileCode p) bit) := .inr (.inl ⟨ch, p, bit, rfl⟩)
    exact ⟨exec_position_noperm he hi, exec_position_index he hi⟩
  · rintro ch bit s _ he rfl
    exact issueWord_illegal_raises (decode_encode_pxEmb_three ch bit) he

/-- Settles O42: the position passes the one check and the bit of the selected byte is the one write; the check's two
errors come before it, and the decoder rejects `PROF` = 3. -/
theorem pxExtExtractsFromTheSelectedByte : Obligations.PxExtExtractsFromTheSelectedByte := by
  refine ⟨encode_pxExt_toNat, ?_, ?_, ?_⟩
  · rintro ch p s _ he hp hn rfl
    exact exec_pxExt he ch p hp hn
  · rintro ch p s _ he rfl
    have hi : TakesPosition (.pxExt ch (profileCode p)) := .inr (.inr ⟨ch, p, rfl⟩)
    exact ⟨exec_position_noperm he hi, exec_position_index he hi⟩
  · rintro ch s _ he rfl
    exact issueWord_illegal_raises (decode_encode_pxExt_three ch) he

/-- Settles O44: an address inside CANVAS passes the one check and the byte is stored there alone; outside, it raises
`ADDR`. -/
theorem cvWrWritesAByte : Obligations.CvWrWritesAByte := by
  refine ⟨encode_cvWr_toNat, fun d s he => ⟨fun ha => ?_, exec_cvWr_addr he d⟩⟩
  exact ⟨_, exec_cvWr he d ha, canvasPoke_frame d s, memRead_canvasPoke_self d s,
    fun b hb => memRead_canvasPoke_other hb d⟩

/-- Settles O45: an address inside CANVAS passes the one check and the byte there is the one write; outside, it raises
`ADDR`. -/
theorem cvRdReadsAByte : Obligations.CvRdReadsAByte := by
  rw [Obligations.CvRdReadsAByte, ← encode_cvRd]
  exact ⟨rfl, fun s he => ⟨exec_cvRd he, exec_cvRd_addr he⟩⟩

end Sys2Proof.Machine
end

section
/-! BitFramer (46_host_driver.md): the bits of a frame (R211, R212), and `unframe` as the inverse of `frame` (R213, R215)
for any bit source that agrees with the frame. -/

namespace Sys2Proof.Machine

/-! ### The bits of a frame -/

@[simp] theorem length_bitsOf {w : Nat} (x : BitVec w) : (bitsOf x).length = w := by simp [bitsOf]

theorem bitsOf_getElem? {w t : Nat} (x : BitVec w) (ht : t < w) :
    (bitsOf x)[t]? = some (x.toNat.testBit (w - 1 - t)) := by
  simp [bitsOf, ht, BitVec.getMsbD, BitVec.testBit_toNat]

/-- Blocks of `w` members, one for each member of `l`: the member `b` of the block `q`. -/
theorem getElem?_flatMap_block {α β : Type} {f : α → List β} {w : Nat} (hf : ∀ x, (f x).length = w) {l : List α}
    {q b : Nat} (hb : b < w) : (l.flatMap f)[w * q + b]? = l[q]?.bind fun x => (f x)[b]? := by
  induction l generalizing q with
  | nil => simp
  | cons x l ih =>
    rw [List.flatMap_cons]
    cases q with
    | zero => simp [List.getElem?_append_left, hf, hb]
    | succ q =>
      have hpast : (f x).length ≤ w * (q + 1) + b := by rw [hf, Nat.mul_succ]; omega
      have hrest : w * (q + 1) + b - (f x).length = w * q + b := by rw [hf, Nat.mul_succ]; omega
      rw [List.getElem?_append_right hpast, hrest, ih, List.getElem?_cons_succ]

theorem frame_length (message : List CodeUnit) : (frame message).length = frameBitCount message.length := by
  simp [frame, frameBitCount, List.length_flatMap, Nat.mul_comm]

/-- Bit `t` of the header is bit `15 - t` of the length. -/
theorem frame_header_getElem? {message : List CodeUnit} (hl : message.length ≤ 65535) {t : Nat} (ht : t < 16) :
    (frame message)[t]? = some (message.length.testBit (15 - t)) := by
  have hfits : (BitVec.ofNat 16 message.length).toNat = message.length := by
    rw [BitVec.toNat_ofNat]; omega
  rw [frame, List.getElem?_append_left (by rwa [length_bitsOf]), bitsOf_getElem? _ ht, hfits]

/-- Bit `b` of the character `q` is bit `7 - b` of its low 8 bits. -/
theorem frame_character_getElem? {message : List CodeUnit} {q : Nat} {c : CodeUnit} (hq : message[q]? = some c) {b : Nat}
    (hb : b < 8) : (frame message)[16 + 8 * q + b]? = some ((c.toNat % 256).testBit (7 - b)) := by
  have hpast : (bitsOf (BitVec.ofNat 16 message.length)).length ≤ 16 + 8 * q + b := by rw [length_bitsOf]; omega
  have hrest : 16 + 8 * q + b - (bitsOf (BitVec.ofNat 16 message.length)).length = 8 * q + b := by
    rw [length_bitsOf]; omega
  rw [frame, List.getElem?_append_right hpast, hrest, getElem?_flatMap_block (fun c => length_bitsOf (lowByte c)) hb, hq,
    Option.bind_some, bitsOf_getElem? _ hb, lowByte, BitVec.toNat_setWidth]

/-- Settles O57: the header's 16 bits come first, then blocks of 8 bits, one for each character. -/
theorem frameBits : Obligations.FrameBits := fun message _ hl =>
  ⟨frame_length message, fun _ => frame_header_getElem? hl, fun _ _ hq _ => frame_character_getElem? hq⟩

/-! ### `unframe` of a source that agrees with a frame -/

theorem numberOf_concat (l : List Nat) (b : Nat) : numberOf (l ++ [b]) = 2 * numberOf l + b := by
  rw [numberOf, List.foldl_concat, numberOf]

/-- The `w` low bits of `m`, the most significant first, spell `m` modulo `2^w`. -/
theorem numberOf_testBits (w m : Nat) :
    numberOf ((List.range w).map fun t => if m.testBit (w - 1 - t) then 1 else 0) = m % 2 ^ w := by
  induction w generalizing m with
  | zero => rw [pow_zero, Nat.mod_one]; rfl
  | succ w ih =>
    have hinit : (List.range w).map (fun t => if m.testBit (w + 1 - 1 - t) then 1 else 0) =
        (List.range w).map (fun t => if (m / 2).testBit (w - 1 - t) then 1 else 0) := by
      refine List.map_congr_left fun t ht => ?_
      have hbit : w + 1 - 1 - t = w - 1 - t + 1 := by have := List.mem_range.1 ht; omega
      rw [hbit, Nat.testBit_succ]
    have hlast : (if m.testBit (w + 1 - 1 - w) then 1 else 0) = m % 2 := by
      rw [Nat.add_sub_cancel, Nat.sub_self, Nat.testBit_zero]
      rcases Nat.mod_two_eq_zero_or_one m with h | h <;> simp [h]
    rw [List.range_succ, List.map_append, List.map_singleton, numberOf_concat, hinit, ih, hlast, Nat.pow_succ',
      Nat.mod_mul, Nat.add_comm]

/-- The source `bit` gives the bits of the frame, as far as the frame goes (46_host_driver.md R215). -/
def AgreesWithFrame (bit : Nat → Nat) (message : List CodeUnit) : Prop :=
  ∀ t (b : Bool), (frame message)[t]? = some b → bit t = if b then 1 else 0

section

variable {bit : Nat → Nat} {message : List CodeUnit} (h : AgreesWithFrame bit message)
include h

theorem numberOf_header_of_agrees (hl : message.length ≤ 65535) :
    numberOf ((List.range 16).map bit) = message.length := by
  have hbits : (List.range 16).map bit =
      (List.range 16).map fun t => if message.length.testBit (16 - 1 - t) then 1 else 0 :=
    List.map_congr_left fun t ht => h t _ (frame_header_getElem? hl (List.mem_range.1 ht))
  rw [hbits, numberOf_testBits, Nat.mod_eq_of_lt (by omega)]

theorem frameChar_of_agrees {q : Nat} {c : CodeUnit} (hq : message[q]? = some c) :
    frameChar bit q = BitVec.ofNat 16 (c.toNat % 256) := by
  have hbits : (List.range 8).map (fun b => bit (16 + 8 * q + b)) =
      (List.range 8).map fun b => if (c.toNat % 256).testBit (8 - 1 - b) then 1 else 0 :=
    List.map_congr_left fun b hb => h _ _ (frame_character_getElem? hq (List.mem_range.1 hb))
  rw [frameChar, hbits, numberOf_testBits]
  exact congrArg _ (Nat.mod_mod _ 256)

theorem frameChars_of_agrees :
    (List.range message.length).map (frameChar bit) = message.map fun c => BitVec.ofNat 16 (c.toNat % 256) := by
  refine List.ext_getElem (by simp) fun q hq _ => ?_
  have hlt : q < message.length := by simpa using hq
  simp [frameChar_of_agrees h (List.getElem?_eq_getElem hlt)]

theorem unframe_of_agrees {n : Nat} (hl : message.length ≤ 65535) (hn : frameBitCount message.length ≤ n) :
    unframe bit n = .ok (message.map fun c => BitVec.ofNat 16 (c.toNat % 256)) := by
  have h16 : ¬ n < 16 := by rw [frameBitCount] at hn; omega
  simp only [unframe, if_neg h16, numberOf_header_of_agrees h hl, if_neg (Nat.not_lt.2 hn), frameChars_of_agrees h]

end

/-- Codes up to 255 lose nothing. -/
theorem map_low8_eq_self {message : List CodeUnit} (hc : ∀ c ∈ message, c.toNat ≤ 255) :
    message.map (fun c => BitVec.ofNat 16 (c.toNat % 256)) = message := by
  refine (List.map_congr_left fun c hmem => ?_).trans (List.map_id message)
  rw [Nat.mod_eq_of_lt (Nat.lt_succ_of_le (hc c hmem)), BitVec.ofNat_toNat, BitVec.setWidth_eq, id]

/-- Settles O58: the header's bits are those of the length and each block's those of a character's low 8 bits, and the
number a block of bits spells is the one whose bits they are. -/
theorem unframeInvertsFrame : Obligations.UnframeInvertsFrame := by
  intro message bit n hl hn h
  have hlow := unframe_of_agrees h hl hn
  exact ⟨hlow, fun hc => hlow.trans (congrArg _ (map_low8_eq_self hc))⟩

end Sys2Proof.Machine
end

section
/-! Running host programs: what a program ends with, one rule for each way to build one, so that a driver sequence is
followed line by line (46_host_driver.md R223, R232). -/

namespace Sys2Proof

/-- The word of a well-formed command decodes to it. -/
theorem decode_encode_of_wellFormed {i : Instr} (h : i.wellFormed = true) : decode (encode i) = .cmd i := by
  rw [decode, splitWord_encode]
  cases i with
  | kdAbs k => rfl
  | rngSeed g => cases g <;> rfl
  | rngNext g => cases g <;> rfl
  | ccEmb prof bit =>
    refine orReserved_eq_cmd.mpr ⟨by simp only [encodeFields, bitCode_getLsbD, beq_self_eq_true, Bool.and_self], h, ?_⟩
    exact congrArg (Instr.ccEmb prof) (bitCode_getLsbD bit)
  | ccExt prof => exact orReserved_eq_cmd.mpr ⟨rfl, h, rfl⟩
  | pxEmb ch prof bit =>
    refine orReserved_eq_cmd.mpr ⟨by simp only [encodeFields, bitCode_getLsbD, beq_self_eq_true, Bool.and_self], h, ?_⟩
    exact congrArg₂ (Instr.pxEmb · prof ·) (channelOf_channelCode ch) (bitCode_getLsbD bit)
  | pxExt ch prof =>
    exact orReserved_eq_cmd.mpr ⟨rfl, h, congrArg (Instr.pxExt · prof) (channelOf_channelCode ch)⟩
  | cvWr d =>
    obtain ⟨hlow, hhigh⟩ := setWidth_byte d
    exact orStray_eq_cmd.mpr ⟨by simp [encodeFields, hhigh], congrArg _ hlow⟩
  | _ => rfl

theorem profLegal_profileCode (p : Profile) : profLegal (profileCode p) = true := by cases p <;> rfl

namespace Machine

/-- A command whose word decodes to it does what its execution does, error-stop or not. -/
theorem runProgBy_command_of_execFor {P : Params} {i : Instr} {s t : State} (hd : decode (encode i) = .cmd i)
    (hx : execFor P i (afterAccess none s) = .next t) : runProgBy (stepFor P) (command i) s = .next ((), t) := by
  rw [afterAccess] at hx
  rw [command, wr, runProgBy, stepOn, stepFor, takeNextBy_write (rest := []) (regOffset_aligned .cmd) rfl]
  simp only [writeOffsetBy, regAt_regOffset, issueWordBy, hd, hx, runProgBy_done]

/-! ### What a program ends with -/

/-- Run from `s` on the block with the parameter set `P`, the program `p` ends with a value and a state of which `Q`
holds. -/
def EndsWith (P : Params) {α : Type} (p : Prog α) (s : State) (Q : α → State → Prop) : Prop :=
  ∃ a t, runProgBy (stepFor P) p s = .next (a, t) ∧ Q a t

section

variable {P : Params} {α β : Type} {s : State}

theorem EndsWith.done {a : α} {Q : α → State → Prop} (h : Q a s) : EndsWith P (.done a) s Q :=
  ⟨a, s, runProgBy_done a s, h⟩

theorem EndsWith.mono {p : Prog α} {Q R : α → State → Prop} (h : EndsWith P p s Q) (hQR : ∀ a t, Q a t → R a t) :
    EndsWith P p s R := by
  obtain ⟨a, t, hrun, hQ⟩ := h
  exact ⟨a, t, hrun, hQR a t hQ⟩

theorem EndsWith.bind {p : Prog α} {f : α → Prog β} {Q : β → State → Prop}
    (h : EndsWith P p s fun a t => EndsWith P (f a) t Q) : EndsWith P (bindProg p f) s Q := by
  obtain ⟨a, t, hrun, b, u, hrun', hQ⟩ := h
  exact ⟨b, u, (runProgBy_bind hrun).trans hrun', hQ⟩

theorem EndsWith.andThen {p : Prog Unit} {q : Prog β} {Q : β → State → Prop}
    (h : EndsWith P p s fun _ t => EndsWith P q t Q) : EndsWith P (thenProg p q) s Q :=
  EndsWith.bind h

/-- A loop carries a value `b` that each round updates by `g`, where `A b` is what holds of the state. -/
theorem EndsWith.forEach {f : α → Prog Unit} {A : β → State → Prop} (g : β → α → β) {l : List α}
    (hf : ∀ x ∈ l, ∀ b t, A b t → EndsWith P (f x) t fun _ u => A (g b x) u) {b : β} (hs : A b s) :
    EndsWith P (forEach l f) s fun _ t => A (l.foldl g b) t := by
  induction l generalizing s b with
  | nil => exact .done hs
  | cons x l ih =>
    refine .andThen ((hf x List.mem_cons_self b s hs).mono fun _ t ht => ?_)
    exact ih (fun y hy => hf y (List.mem_cons_of_mem x hy)) ht

/-- A loop that keeps `J` of the state. -/
theorem EndsWith.forEach_invariant {f : α → Prog Unit} {J : State → Prop} {l : List α}
    (hf : ∀ x ∈ l, ∀ t, J t → EndsWith P (f x) t fun _ u => J u) (hs : J s) :
    EndsWith P (Machine.forEach l f) s fun _ t => J t :=
  .forEach (A := fun _ : Unit => J) (fun b _ => b) (fun x hx _ => hf x hx) (b := ()) hs

/-- A loop that collects values and keeps `J` of the state. -/
theorem EndsWith.collect {f : α → Prog β} {J : State → Prop} (g : α → β) {l : List α}
    (hf : ∀ x ∈ l, ∀ t, J t → EndsWith P (f x) t fun b u => b = g x ∧ J u) (hs : J s) :
    EndsWith P (collect l f) s fun bs t => bs = l.map g ∧ J t := by
  induction l generalizing s with
  | nil => exact .done ⟨rfl, hs⟩
  | cons x l ih =>
    refine .bind ((hf x List.mem_cons_self s hs).mono fun b t hb => .bind ?_)
    obtain ⟨rfl, ht⟩ := hb
    refine (ih (fun y hy => hf y (List.mem_cons_of_mem x hy)) ht).mono fun bs u hbs => .done ?_
    obtain ⟨rfl, hu⟩ := hbs
    exact ⟨rfl, hu⟩

/-! ### Single accesses -/

theorem EndsWith.rd {r : Reg} {Q : Word → State → Prop} (h : Q (readReg r s) (afterAccess (some (readReg r s)) s)) :
    EndsWith P (rd r) s Q :=
  ⟨_, _, runProgBy_rd r s, h⟩

theorem EndsWith.wr_arg0 {v : Word} {Q : Unit → State → Prop} (h : Q () { afterAccess none s with arg0 := v }) :
    EndsWith P (wr .arg0 v) s Q :=
  ⟨_, _, runProgBy_wr_arg0 v s, h⟩

theorem EndsWith.wr_arg1 {v : Word} {Q : Unit → State → Prop} (h : Q () { afterAccess none s with arg1 := v }) :
    EndsWith P (wr .arg1 v) s Q :=
  ⟨_, _, runProgBy_wr_arg1 v s, h⟩

/-- Error-stop does not stop `NOP`, `CLR`, `CLRERR`. -/
theorem EndsWith.command_runsInErrorStop {i : Instr} {Q : Unit → State → Prop} (hw : i.wellFormed = true)
    (hr : runsInErrorStop i = true) (h : Q () (commandEffect P i (afterAccess none s))) : EndsWith P (command i) s Q :=
  ⟨_, _, runProgBy_command_of_execFor (decode_encode_of_wellFormed hw) (execFor_eq_effect P hr _), h⟩

theorem EndsWith.command {i : Instr} {Q : Unit → State → Prop} (hw : i.wellFormed = true) (he : s.err = 0)
    (hc : commandCheck i (afterAccess none s) = none) (h : Q () (commandEffect P i (afterAccess none s))) :
    EndsWith P (command i) s Q :=
  ⟨_, _, runProgBy_command (decode_encode_of_wellFormed hw) he hc, h⟩

end

end Machine

end Sys2Proof
end

section
/-! The pseudo-instructions (30_encoding.md R91) as the reference driver uses them. Of the block's state its sequences need
the bytes of CANVAS, as one function of the address, and the permutation that the password and the number of pixels
determine; each pseudo-instruction is said once in these terms. -/

namespace Sys2Proof.Machine

/-! ### The canvas as a function of the address -/

/-- The block is out of error-stop and its canvas reads as `m`. -/
def Holding (m : Nat → Byte) (s : State) : Prop := s.err = 0 ∧ memRead s = m

/-- The canvas after the writes of `l` in order, of each member `x` the byte `val x` of the old byte at `addr x`. -/
def overwrite {α : Type} (addr : α → Nat) (val : α → Byte → Byte) (l : List α) (m : Nat → Byte) : Nat → Byte :=
  l.foldl (fun m x => Function.update m (addr x) (val x (m (addr x)))) m

theorem memRead_memWrite (a : Nat) (b : Byte) (s : State) :
    memRead (memWrite a b s) = Function.update (memRead s) a b := by
  funext a'
  by_cases h : a' = a
  · rw [h, memRead_memWrite_self, Function.update_self]
  · rw [memRead_memWrite_other h, Function.update_of_ne h]

section

variable {α : Type} {addr : α → Nat} {val : α → Byte → Byte} {l : List α}

theorem overwrite_cons (x : α) (m : Nat → Byte) :
    overwrite addr val (x :: l) m = overwrite addr val l (Function.update m (addr x) (val x (m (addr x)))) := rfl

theorem overwrite_of_forall_ne {a : Nat} (h : ∀ x ∈ l, a ≠ addr x) (m : Nat → Byte) : overwrite addr val l m a = m a := by
  induction l generalizing m with
  | nil => rfl
  | cons x l ih =>
    rw [overwrite_cons, ih fun y hy => h y (List.mem_cons_of_mem x hy), Function.update_of_ne (h x List.mem_cons_self)]

/-- Writes to different addresses all stand in the end. -/
theorem overwrite_of_mem (hl : l.Pairwise fun x y => addr x ≠ addr y) {x : α} (hx : x ∈ l) (m : Nat → Byte) :
    overwrite addr val l m (addr x) = val x (m (addr x)) := by
  induction l generalizing m with
  | nil => cases hx
  | cons y l ih =>
    obtain ⟨hy, htail⟩ := List.pairwise_cons.1 hl
    rcases List.mem_cons.1 hx with rfl | hmem
    · rw [overwrite_cons, overwrite_of_forall_ne hy, Function.update_self]
    · rw [overwrite_cons, ih htail hmem, Function.update_of_ne (hy x hmem).symm]

end

/-- The members of `l` with their places, at an address that no two places share. -/
theorem pairwise_zipIdx_addr_ne {α : Type} {l : List α} {addr : Nat → Nat}
    (h : ∀ i < l.length, ∀ j < l.length, addr i = addr j → i = j) :
    l.zipIdx.Pairwise fun x y => addr x.2 ≠ addr y.2 := by
  have hplaces : l.zipIdx.Pairwise fun x y => x.2 ≠ y.2 := by
    rw [← List.pairwise_map (f := Prod.snd) (R := (· ≠ ·)), List.zipIdx_map_snd]
    exact List.nodup_range'
  refine hplaces.imp_of_mem fun {x y} hx hy hne heq => hne (h _ ?_ _ ?_ heq)
  · exact (List.mem_zipIdx' hx).1
  · exact (List.mem_zipIdx' hy).1

/-! ### The permutation -/

/-- The permutation of `n` pixels under `seed` stands in PERM, on a canvas that reads as `m`. -/
def Shuffled (P : Params) (n : Nat) (seed : Word) (m : Nat → Byte) (s : State) : Prop :=
  Holding m s ∧ s.pv = true ∧ s.npix.toNat = n ∧ ∀ q < n, (fy P n seed).1[q]? = some (permRead s q).toNat

theorem Shuffled.holding {P : Params} {n : Nat} {seed : Word} {m : Nat → Byte} {s : State} (h : Shuffled P n seed m s) :
    Holding m s :=
  h.1

theorem Shuffled.err_eq_zero {P : Params} {n : Nat} {seed : Word} {m : Nat → Byte} {s : State}
    (h : Shuffled P n seed m s) : s.err = 0 :=
  h.holding.1

/-- The address of the byte that carries position `i` (46_host_driver.md R228). -/
def carrierAddr (P : Params) (n : Nat) (seed : Word) (ch : Channel) (i : Nat) : Nat :=
  pixelAddr ((fy P n seed).1[i]?.getD 0) ch

theorem pixelAddr_inj {p q : Nat} {ch : Channel} (h : pixelAddr p ch = pixelAddr q ch) : p = q := by
  unfold pixelAddr at h
  omega

theorem carrierAddr_lt (P : Params) {n i : Nat} (seed : Word) (ch : Channel) (hi : i < n) :
    carrierAddr P n seed ch i < 4 * n := by
  have hlen : i < (fy P n seed).1.length := by rwa [fy_length]
  have hentry := fy_getElem_lt P seed hlen
  have hch := (channelCode ch).isLt
  rw [carrierAddr, List.getElem?_eq_getElem hlen, Option.getD_some, pixelAddr]
  omega

theorem carrierAddr_inj {P : Params} {n i j : Nat} {seed : Word} {ch : Channel} (hi : i < n) (hj : j < n)
    (h : carrierAddr P n seed ch i = carrierAddr P n seed ch j) : i = j := by
  have hilen : i < (fy P n seed).1.length := by rwa [fy_length]
  have hjlen : j < (fy P n seed).1.length := by rwa [fy_length]
  have hnodup : (fy P n seed).1.Nodup := (fy_perm P n seed).nodup_iff.2 List.nodup_range
  have hentries := pixelAddr_inj h
  rw [List.getElem?_eq_getElem hilen, List.getElem?_eq_getElem hjlen, Option.getD_some, Option.getD_some] at hentries
  exact (hnodup.getElem_inj_iff).1 hentries

theorem memRead_shuffle (P : Params) (s : State) : memRead (shuffle P s) = memRead s := rfl

theorem memRead_pxEmbed (ch : Channel) (p : Profile) (bit : Bool) (s : State) :
    memRead (pxEmbed ch p bit s) =
      Function.update (memRead s) (selectedAddr ch s) (embedBit p (memRead s (selectedAddr ch s)) bit) :=
  memRead_memWrite _ _ s

/-! ### What the commands on a position do to a shuffled block -/

section

variable {P : Params} {n i : Nat} {seed : Word} {m : Nat → Byte} {ch : Channel} {p : Profile} {s : State}
  (h : Shuffled P n seed m s) (hs : s.arg0.toNat = i) (hi : i < n)
include h hs hi

theorem checkPosition_of_shuffled : checkPosition s = none := by
  obtain ⟨-, hpv, hnpix, -⟩ := h
  exact checkPosition_none hpv (by rwa [hs, hnpix])

theorem selectedAddr_of_shuffled : selectedAddr ch s = carrierAddr P n seed ch i := by
  obtain ⟨-, -, -, hperm⟩ := h
  rw [carrierAddr, hperm i hi, Option.getD_some, selectedAddr, arg0Nat, hs]

theorem shuffled_pxEmbed (bit : Bool) :
    Shuffled P n seed (Function.update m (carrierAddr P n seed ch i) (embedBit p (m (carrierAddr P n seed ch i)) bit))
      (pxEmbed ch p bit s) := by
  have haddr : selectedAddr ch s = carrierAddr P n seed ch i := selectedAddr_of_shuffled h hs hi
  obtain ⟨⟨he, rfl⟩, hperm⟩ := h
  exact ⟨⟨he, by rw [memRead_pxEmbed, haddr]⟩, hperm⟩

theorem shuffled_pxExtract : (pxExtract ch p s).res = bitResult (extractBit p (m (carrierAddr P n seed ch i))) ∧
    Shuffled P n seed m (pxExtract ch p s) := by
  have haddr : selectedAddr ch s = carrierAddr P n seed ch i := selectedAddr_of_shuffled h hs hi
  obtain ⟨⟨he, rfl⟩, hperm⟩ := h
  exact ⟨by rw [pxExtract, setRes, haddr], ⟨he, rfl⟩, hperm⟩

end

/-! ### What a program of each pseudo-instruction ends with -/

/-- The four seeds of a password (41_key_derivation.md R114, R115). -/
def derivedSeeds (P : Params) (password : List CodeUnit) : Quad := P.kdFinalize (password.foldl (kdRound P) P.kdInit)

/-- A key derivation is open with the accumulators `q`, on a canvas that reads as `m`. -/
def Deriving (m : Nat → Byte) (q : Quad) (s : State) : Prop := Holding m s ∧ s.kda = true ∧ s.h = q

/-- Addresses, positions and numbers of pixels fit a register. -/
theorem toNat_ofNat_word {a : Nat} (h : a ≤ 4194304) : (BitVec.ofNat 32 a).toNat = a := by
  rw [BitVec.toNat_ofNat, Nat.mod_eq_of_lt (h.trans_lt (by decide))]

section

variable {P : Params} {s : State} {m : Nat → Byte}

theorem endsWith_optionalClr {on : Bool} (h : s.err = 0 ∨ on = true) :
    EndsWith P (optionalClr on) s fun _ t => t.err = 0 := by
  cases on with
  | true => exact .command_runsInErrorStop rfl rfl rfl
  | false => exact .done (h.resolve_right Bool.false_ne_true)

theorem endsWith_requireStatus {α : Type} {k : Nat} {want : Bool} {p : Prog (Except DriverError α)}
    {Q : Except DriverError α → State → Prop} (hk : (status s).getLsbD k = want)
    (h : EndsWith P p (afterAccess (some (status s)) s) Q) : EndsWith P (requireStatus k want p) s Q := by
  have hbit : (readReg .status s).getLsbD k = want := hk
  refine .bind (.rd ?_)
  rwa [if_pos hbit]

theorem endsWith_derive {password : List CodeUnit} (h : Holding m s) :
    EndsWith P (derive password) s fun _ t => Holding m t ∧ t.seedv = true ∧ t.seed = derivedSeeds P password := by
  obtain ⟨he, hm⟩ := h
  refine .andThen (.command rfl he rfl (.andThen ?_))
  refine EndsWith.mono (.forEach (A := Deriving m) (kdRound P) ?_ (b := P.kdInit) ⟨⟨he, hm⟩, rfl, rfl⟩) ?_
  · rintro k - q t ⟨⟨hte, htm⟩, hkda, rfl⟩
    exact .command rfl hte (checkOpen_none hkda) ⟨⟨hte, htm⟩, hkda, rfl⟩
  · rintro - t ⟨⟨hte, htm⟩, hkda, hh⟩
    exact .command rfl hte (checkOpen_none hkda) ⟨⟨hte, htm⟩, rfl, congrArg P.kdFinalize hh⟩

theorem endsWith_poke {a : Nat} {d : Byte} (he : s.err = 0) (ha : a < 4194304) :
    EndsWith P (poke (BitVec.ofNat 32 a) d) s fun _ t =>
      t = canvasPoke d { afterAccess none s with arg0 := BitVec.ofNat 32 a } := by
  have haddr : (BitVec.ofNat 32 a).toNat = a := toNat_ofNat_word ha.le
  exact .andThen (.wr_arg0 (.command rfl he (checkAddr_none (haddr.trans_lt ha)) rfl))

theorem endsWith_poke_holding {a : Nat} {d : Byte} (h : Holding m s) (ha : a < 4194304) :
    EndsWith P (poke (BitVec.ofNat 32 a) d) s fun _ t => Holding (Function.update m a d) t := by
  obtain ⟨he, rfl⟩ := h
  refine (endsWith_poke he ha).mono fun _ t ht => ?_
  subst ht
  refine ⟨he, (memRead_memWrite _ d _).trans ?_⟩
  rw [arg0Nat, toNat_ofNat_word ha.le]
  rfl

theorem endsWith_peek {a : Nat} (h : Holding m s) (ha : a < 4194304) :
    EndsWith P (peek (BitVec.ofNat 32 a)) s fun b t => b = m a ∧ Holding m t := by
  obtain ⟨he, rfl⟩ := h
  have haddr : (BitVec.ofNat 32 a).toNat = a := toNat_ofNat_word ha.le
  refine .andThen (.wr_arg0 (.andThen (.command rfl he (checkAddr_none (haddr.trans_lt ha)) (.bind (.rd (.done ?_))))))
  refine ⟨?_, he, rfl⟩
  refine (BitVec.setWidth_setWidth_of_le _ (by decide)).trans ?_
  rw [BitVec.setWidth_eq]
  exact congrArg (memRead s) haddr

theorem endsWith_shuffle {n : Nat} {seed : Word} (h : Holding m s) (hn : n ≤ 1048576) :
    EndsWith P (shufflePseudo (BitVec.ofNat 32 n) seed) s fun _ t => Shuffled P n seed m t := by
  obtain ⟨he, hm⟩ := h
  have hfit : (BitVec.ofNat 32 n).toNat = n := toNat_ofNat_word (hn.trans (by decide))
  refine .andThen (.wr_arg0 (.andThen (.wr_arg1 (.command rfl he (checkFits_none (hfit.trans_le hn)) ?_))))
  refine ⟨⟨(shuffle_err ..).trans he, (memRead_shuffle ..).trans hm⟩, shuffle_pv .., hfit, fun q hq => ?_⟩
  have hread := fy_getElem?_eq_permRead_shuffle P (s := { afterAccess none s with arg0 := BitVec.ofNat 32 n, arg1 := seed })
    (hfit.trans_le hn) (hq.trans_eq hfit.symm)
  rwa [hfit] at hread

theorem endsWith_wr_position {n i : Nat} {seed : Word} (h : Shuffled P n seed m s) (hi : i < n) (hn : n ≤ 1048576) :
    EndsWith P (wr .arg0 (BitVec.ofNat 32 i)) s fun _ t => Shuffled P n seed m t ∧ t.arg0.toNat = i :=
  .wr_arg0 ⟨h, toNat_ofNat_word (hi.le.trans (hn.trans (by decide)))⟩

theorem endsWith_positionCommand {n i : Nat} {seed : Word} {c : Instr} {Q : Unit → State → Prop}
    (h : Shuffled P n seed m s ∧ s.arg0.toNat = i) (hi : i < n) (hw : c.wellFormed = true) (hc : TakesPosition c)
    (hQ : Q () (commandEffect P c (afterAccess none s))) : EndsWith P (command c) s Q := by
  obtain ⟨hs, hpos⟩ := h
  refine .command hw hs.err_eq_zero ((commandCheck_of_takesPosition hc _).trans ?_) hQ
  exact checkPosition_of_shuffled (s := afterAccess none s) hs hpos hi

theorem endsWith_embed {n i : Nat} {seed : Word} {ch : Channel} {p : Profile} {bit : Bool} (h : Shuffled P n seed m s)
    (hi : i < n) (hn : n ≤ 1048576) :
    EndsWith P (embedPseudo ch p (BitVec.ofNat 32 i) bit) s fun _ t =>
      Shuffled P n seed (Function.update m (carrierAddr P n seed ch i) (embedBit p (m (carrierAddr P n seed ch i)) bit))
        t := by
  refine .andThen ((endsWith_wr_position h hi hn).mono fun _ t ht => ?_)
  refine endsWith_positionCommand ht hi (profLegal_profileCode p) (.inr (.inl ⟨ch, p, bit, rfl⟩)) ?_
  rw [commandEffect, profileOf_profileCode, Option.elim_some]
  exact shuffled_pxEmbed (s := afterAccess none t) ht.1 ht.2 hi bit

theorem endsWith_extract {n i : Nat} {seed : Word} {ch : Channel} {p : Profile} (h : Shuffled P n seed m s)
    (hi : i < n) (hn : n ≤ 1048576) :
    EndsWith P (extractPseudo ch p (BitVec.ofNat 32 i)) s fun v t =>
      v = bitResult (extractBit p (m (carrierAddr P n seed ch i))) ∧ Shuffled P n seed m t := by
  refine .andThen ((endsWith_wr_position h hi hn).mono fun _ t ht => .andThen ?_)
  refine endsWith_positionCommand ht hi (profLegal_profileCode p) (.inr (.inr ⟨ch, p, rfl⟩)) ?_
  rw [commandEffect, profileOf_profileCode, Option.elim_some]
  exact .rd (shuffled_pxExtract (s := afterAccess none t) ht.1 ht.2 hi)

end

end Sys2Proof.Machine
end

section
/-! The reference driver's round trip (46_host_driver.md R234): the steps of Encode (R223) and of Decode (R232), each from
its loop, then the two sequences line by line, and the two together. -/

namespace Sys2Proof.Machine

section

variable {P : Params} {s : State} {m : Nat → Byte}

/-! ### The steps of Encode and Decode -/

/-- E4 with cover fill: whatever the draws are, no error is raised. -/
theorem endsWith_coverFill {n : Nat} {s1 : Word} (he : s.err = 0) (hn : n ≤ 1048576) :
    EndsWith P (coverFill n s1) s fun _ t => t.err = 0 := by
  refine .andThen (.andThen (.wr_arg0 (.command rfl he rfl ?_)))
  refine EndsWith.mono (.forEach_invariant (J := fun t => t.err = 0 ∧ t.rv1 = true) ?_ ⟨he, rfl⟩) fun _ _ ht => ht.1
  rintro a ha t ⟨hte, hrv⟩
  have haddr : a < 4194304 := by have := List.mem_range.1 ha; omega
  have hdraw : (drawGen P .g1 (afterAccess none t)).err = 0 := (drawGen1_err ..).trans hte
  have hseeded : (drawGen P .g1 (afterAccess none t)).rv1 = true := (drawGen1_rv1 ..).trans hrv
  refine .bind (.andThen (.command rfl hte (checkSeeded_none (g := .g1) hrv) (.rd ?_)))
  exact EndsWith.mono (endsWith_poke hdraw haddr) fun _ u hu => hu ▸ ⟨hdraw, hseeded⟩

/-- A loop of which each round writes one byte of the canvas. -/
theorem endsWith_forEach_overwrite {α : Type} {f : α → Prog Unit} {A : (Nat → Byte) → State → Prop} {l : List α}
    (addr : α → Nat) (val : α → Byte → Byte)
    (hf : ∀ x ∈ l, ∀ m t, A m t →
      EndsWith P (f x) t fun _ u => A (Function.update m (addr x) (val x (m (addr x)))) u) (hs : A m s) :
    EndsWith P (forEach l f) s fun _ t => A (overwrite addr val l m) t :=
  .forEach _ hf hs

theorem endsWith_loadPixels {pixels : List Byte} (h : Holding m s) (hl : pixels.length ≤ 4194304) :
    EndsWith P (loadPixels pixels) s fun _ t => ∃ m', Holding m' t ∧ ∀ a d, pixels[a]? = some d → m' a = d := by
  refine EndsWith.mono (endsWith_forEach_overwrite Prod.snd (fun x _ => x.1) (fun x hx m t ht => ?_) h) ?_
  · exact endsWith_poke_holding ht ((List.mem_zipIdx' hx).1.trans_le hl)
  · refine fun _ t ht => ⟨_, ht, fun a d had => ?_⟩
    have hne := pairwise_zipIdx_addr_ne (l := pixels) (addr := id) fun _ _ _ _ h => h
    exact overwrite_of_mem hne (x := (d, a)) (List.mk_mem_zipIdx_iff_getElem?.2 had) m

theorem extractBit_embedBit (p : Profile) (b : Byte) (bit : Bool) : extractBit p (embedBit p b bit) = bit := by
  cases p with
  | lsb => cases bit <;> simp [extractBit, embedBit]
  | sentinel => cases bit <;> rfl
  | fullValue => cases bit <;> rfl

theorem endsWith_embedFrame {n : Nat} {seed : Word} {ch : Channel} {p : Profile} {f : List Bool}
    (h : Shuffled P n seed m s) (hf : f.length ≤ n) (hn : n ≤ 1048576) :
    EndsWith P (embedFrame ch p f) s fun _ t => ∃ m', Shuffled P n seed m' t ∧
      ∀ i b, f[i]? = some b → extractBit p (m' (carrierAddr P n seed ch i)) = b := by
  refine EndsWith.mono (endsWith_forEach_overwrite (fun x => carrierAddr P n seed ch x.2)
    (fun x old => embedBit p old x.1) (fun x hx m t ht => ?_) h) ?_
  · exact endsWith_embed ht ((List.mem_zipIdx' hx).1.trans_le hf) hn
  · refine fun _ t ht => ⟨_, ht, fun i b hib => ?_⟩
    have hne := pairwise_zipIdx_addr_ne (l := f) (addr := carrierAddr P n seed ch) fun i hi j hj =>
      carrierAddr_inj (hi.trans_le hf) (hj.trans_le hf)
    rw [overwrite_of_mem hne (x := (b, i)) (List.mk_mem_zipIdx_iff_getElem?.2 hib) m]
    exact extractBit_embedBit p _ b

theorem endsWith_readBack {n : Nat} (h : Holding m s) (hn : n ≤ 1048576) :
    EndsWith P (readBack n) s fun l t => l = (List.range (4 * n)).map m ∧ Holding m t :=
  .collect m (fun _ ha _ ht => endsWith_peek ht (by have := List.mem_range.1 ha; omega)) h

/-- The number that the extraction of position `i` leaves in `RES`, on a canvas that reads as `m`. -/
def carriedBit (P : Params) (n : Nat) (seed : Word) (ch : Channel) (p : Profile) (m : Nat → Byte) (i : Nat) : Nat :=
  (bitResult (extractBit p (m (carrierAddr P n seed ch i)))).toNat

theorem endsWith_extractBits {n start count : Nat} {seed : Word} {ch : Channel} {p : Profile} (h : Shuffled P n seed m s)
    (hc : start + count ≤ n) (hn : n ≤ 1048576) :
    EndsWith P (extractBits ch p start count) s fun l t =>
      l = (List.range count).map (fun t => carriedBit P n seed ch p m (start + t)) ∧ Shuffled P n seed m t := by
  refine .collect _ (fun k hk t ht => .bind ?_) h
  have hpos : start + k < n := by have := List.mem_range.1 hk; omega
  refine (endsWith_extract ht hpos hn).mono fun v u hv => .done ?_
  exact ⟨congrArg BitVec.toNat hv.1, hv.2⟩

/-! ### Encode and Decode -/

/-- E2 and E3, and D3: the password's first seed is read from a canvas that stays as it is. -/
theorem endsWith_seeds {α : Type} {password : List CodeUnit} {f : Word → Prog (Except DriverError α)}
    {Q : Except DriverError α → State → Prop} (h : Holding m s)
    (hf : ∀ t, Holding m t → EndsWith P (f (derivedSeeds P password).x1) t Q) :
    EndsWith P (thenProg (derive password) (requireStatus 2 true (bindProg (rd .seed0) f))) s Q := by
  refine .andThen ((endsWith_derive h).mono fun _ t ⟨ht, hv, hseed⟩ => ?_)
  have hbit : (status t).getLsbD 2 = true := by simp [status_getLsbD, hv]
  refine endsWith_requireStatus hbit (.bind (.rd ?_))
  have hread : readReg .seed0 (afterAccess (some (status t)) t) = (derivedSeeds P password).x1 := congrArg Quad.x1 hseed
  rw [hread]
  exact hf _ ht

/-- E7, and D8. -/
theorem endsWith_requireNoError {α : Type} {p : Prog (Except DriverError α)} {Q : Except DriverError α → State → Prop}
    (he : s.err = 0) (h : EndsWith P p (afterAccess (some (status s)) s) Q) : EndsWith P (requireStatus 0 false p) s Q :=
  endsWith_requireStatus (by rw [status_getLsbD]; simp [errF, he]) h

/-- The canvas that reads as `m` carries the message's frame on channel `ch` of `n` pixels, at the positions of the
password's permutation. -/
def CarriesFrame (P : Params) (n : Nat) (password : List CodeUnit) (ch : Channel) (p : Profile) (m : Nat → Byte)
    (message : List CodeUnit) : Prop :=
  ∀ i b, (frame message)[i]? = some b → extractBit p (m (carrierAddr P n (derivedSeeds P password).x1 ch i)) = b

/-- Only the bytes of the `n` pixels matter. -/
theorem CarriesFrame.congr {n : Nat} {password : List CodeUnit} {ch : Channel} {p : Profile} {m' : Nat → Byte}
    {message : List CodeUnit} (h : CarriesFrame P n password ch p m message) (hf : frameBitCount message.length ≤ n)
    (heq : ∀ a < 4 * n, m' a = m a) : CarriesFrame P n password ch p m' message := by
  intro i b hib
  have hi : i < n := ((List.getElem?_eq_some_iff.1 hib).1.trans_eq (frame_length message)).trans_le hf
  rw [heq _ (carrierAddr_lt P _ ch hi)]
  exact h i b hib

theorem checkEncode_none {c : Canvas} {password message : List CodeUnit} (h : checkEncode c password message = none) :
    message.length ≤ 65535 ∧ password.length ≠ 0 ∧ c.pixels.length = 4 * totalPixels c ∧ totalPixels c ≤ 1048576 ∧
      frameBitCount message.length ≤ totalPixels c := by
  unfold checkEncode at h
  split_ifs at h with _ hlong hempty hshape hlarge hfit
  exact ⟨Nat.not_lt.1 hlong, hempty, not_not.1 hshape, Nat.not_lt.1 hlarge, Nat.not_lt.1 hfit⟩

/-- What Encode has left is enough for the checks of Decode: a frame has at least 16 bits. -/
theorem checkDecode_eq_none {c : Canvas} {password : List CodeUnit} (hpw : password.length ≠ 0)
    (hp : c.pixels.length = 4 * totalPixels c) (hn : totalPixels c ≤ 1048576) (h16 : 16 ≤ totalPixels c) :
    checkDecode c password = none := by
  rw [checkDecode, if_neg hpw, if_neg (not_not.2 hp), if_neg (Nat.not_lt.2 hn), if_neg (Nat.not_lt.2 h16)]

/-- E4: whether the canvas is filled or loaded, no error is raised. -/
theorem endsWith_fillOrLoad {cover : Bool} {n : Nat} {s1 : Word} {pixels : List Byte} (he : s.err = 0)
    (hn : n ≤ 1048576) (hp : pixels.length = 4 * n) :
    EndsWith P (if cover then coverFill n s1 else loadPixels pixels) s fun _ t => t.err = 0 := by
  cases cover with
  | true => exact endsWith_coverFill he hn
  | false =>
    have hfit : pixels.length ≤ 4194304 := by omega
    exact (endsWith_loadPixels ⟨he, rfl⟩ hfit).mono fun _ _ ⟨_, ⟨ht, _⟩, _⟩ => ht

theorem endsWith_encodeCanvas {cfg : DriverConfig} {c : Canvas} {password message : List CodeUnit}
    (hs : s.err = 0 ∨ cfg.clearBefore = true) (hc : checkEncode c password message = none) :
    EndsWith P (encodeCanvas cfg c password message) s fun r t => t.err = 0 ∧
      ∃ m, r = .ok { c with pixels := (List.range (4 * totalPixels c)).map m } ∧
        CarriesFrame P (totalPixels c) password cfg.ch cfg.prof m message := by
  obtain ⟨-, -, hp, hn, hf⟩ := checkEncode_none hc
  simp only [encodeCanvas, hc]
  refine .andThen ((endsWith_optionalClr hs).mono fun _ t he => ?_)
  refine endsWith_seeds ⟨he, rfl⟩ fun t ⟨he, _⟩ => .bind (.rd (.andThen ?_))
  refine EndsWith.mono (endsWith_fillOrLoad he hn hp) fun _ t he => .andThen ?_
  refine EndsWith.mono (endsWith_shuffle ⟨he, rfl⟩ hn) fun _ t ht => .andThen ?_
  refine EndsWith.mono (endsWith_embedFrame ht ((frame_length message).trans_le hf) hn) fun _ t ⟨m, ht, hm⟩ => ?_
  refine endsWith_requireNoError ht.err_eq_zero (.bind ?_)
  refine EndsWith.mono (endsWith_readBack ht.holding hn) fun l t ⟨hl, he, _⟩ => .andThen ?_
  refine EndsWith.mono (endsWith_optionalClr (.inl he)) fun _ t he => .done ?_
  exact ⟨he, m, by rw [hl], hm⟩

/-- D5 and D7: of a canvas that carries a message's frame, the extracted bits are those of the frame. -/
theorem agreesWithFrame_of_carriesFrame {n : Nat} {password : List CodeUnit} {ch : Channel} {p : Profile}
    {message : List CodeUnit} (h : CarriesFrame P n password ch p m message) :
    AgreesWithFrame (carriedBit P n (derivedSeeds P password).x1 ch p m) message := by
  intro i b hib
  rw [carriedBit, h i b hib]
  cases b <;> rfl

/-- D7: the characters, one after another. -/
theorem endsWith_extractText {n l : Nat} {seed : Word} {ch : Channel} {p : Profile} (h : Shuffled P n seed m s)
    (hl : frameBitCount l ≤ n) (hn : n ≤ 1048576) :
    EndsWith P (collect (List.range l) fun q =>
        bindProg (extractBits ch p (16 + 8 * q) 8) fun bits => .done (BitVec.ofNat 16 (numberOf bits))) s
      fun text t => text = (List.range l).map (frameChar (carriedBit P n seed ch p m)) ∧ Shuffled P n seed m t := by
  refine .collect _ (fun q hq t ht => .bind ?_) h
  have hblock : 16 + 8 * q + 8 ≤ n := by
    have := List.mem_range.1 hq
    rw [frameBitCount] at hl
    omega
  refine EndsWith.mono (endsWith_extractBits ht hblock hn) fun bits u ⟨hbits, hu⟩ => .done ⟨?_, hu⟩
  rw [hbits, frameChar]

theorem endsWith_decodeCanvas {cfg : DriverConfig} {c : Canvas} {password message : List CodeUnit}
    (hs : s.err = 0 ∨ cfg.clearBefore = true) (hpw : password.length ≠ 0) (hn : totalPixels c ≤ 1048576)
    (hp : c.pixels = (List.range (4 * totalPixels c)).map m) (hl : message.length ≤ 65535)
    (hf : frameBitCount message.length ≤ totalPixels c)
    (hm : CarriesFrame P (totalPixels c) password cfg.ch cfg.prof m message) :
    EndsWith P (decodeCanvas cfg c password) s fun r t => t.err = 0 ∧
      r = .ok (message.map fun k => BitVec.ofNat 16 (k.toNat % 256)) := by
  have hlen : c.pixels.length = 4 * totalPixels c := by simp [hp]
  have h16 : 16 ≤ totalPixels c := (Nat.le_add_right 16 _).trans hf
  simp only [decodeCanvas, checkDecode_eq_none hpw hlen hn h16]
  refine .andThen ((endsWith_optionalClr hs).mono fun _ t he => .andThen ?_)
  refine EndsWith.mono (endsWith_loadPixels ⟨he, rfl⟩ (by omega)) fun _ t ⟨m', ht, hm'⟩ => ?_
  have hcarried : CarriesFrame P (totalPixels c) password cfg.ch cfg.prof m' message :=
    hm.congr hf fun a ha => hm' a (m a) (by simp [hp, ha])
  have hagrees := agreesWithFrame_of_carriesFrame hcarried
  refine endsWith_seeds ht fun t ht => .andThen ?_
  refine EndsWith.mono (endsWith_shuffle ht hn) fun _ t ht => .bind ?_
  refine EndsWith.mono (endsWith_extractBits ht h16 hn) fun header t ⟨hheader, ht⟩ => ?_
  have hlength : numberOf header = message.length := by
    rw [hheader, ← numberOf_header_of_agrees hagrees hl]
    simp only [Nat.zero_add]
  rw [hlength, if_neg (Nat.not_lt.2 hf)]
  refine .bind (EndsWith.mono (endsWith_extractText ht hf hn) fun text t ⟨htext, ht⟩ => ?_)
  refine endsWith_requireNoError ht.err_eq_zero (.andThen ?_)
  refine EndsWith.mono (endsWith_optionalClr (.inl ht.err_eq_zero)) fun _ t he => .done ⟨he, ?_⟩
  rw [htext, frameChars_of_agrees hagrees]

end

/-- Settles O59: Encode leaves on the canvas a frame's bits at the addresses that the password's permutation selects, no
two of them the same, and reads the canvas back; Decode loads it and derives the same permutation. -/
theorem decodeOfEncodeIsTheMessage : Obligations.DecodeOfEncodeIsTheMessage := by
  intro st cfg cfg' c password message s s' hst hs hs' hch hprof hc hcodes
  obtain ⟨P, rfl⟩ : ∃ P, st = stepFor P := hst.elim (fun h => ⟨params, h.trans stepFor_params.symm⟩) id
  obtain ⟨hl, hpw, -, hn, hf⟩ := checkEncode_none hc
  obtain ⟨r, t, hrun, he, m, rfl, hm⟩ := endsWith_encodeCanvas (P := P) hs hc
  rw [← hch, ← hprof] at hm
  obtain ⟨r', t', hrun', he', rfl⟩ := endsWith_decodeCanvas (P := P)
    (c := { c with pixels := (List.range (4 * totalPixels c)).map m }) hs' hpw hn rfl hl hf hm
  rw [map_low8_eq_self hcodes] at hrun'
  exact ⟨_, t, t', hrun, he, hrun', he'⟩

end Sys2Proof.Machine
end

section
/-! Errors (60_exceptions.md): which word raises which error (R250), precision (R255), error-stop (R256) and the order
of the checks (R257). The four rest on one table: a command's `commandCheck` is its condition, `errCode` its code. -/

namespace Sys2Proof

theorem profileCode_of_profileOf {v : BitVec 2} {p : Profile} (h : profileOf v = some p) : profileCode p = v := by
  revert v p; decide

/-- The legal values of `PROF` are the numbers of the profiles. -/
theorem exists_profileCode_of_profLegal {v : BitVec 2} (h : profLegal v = true) : ∃ p, profileCode p = v := by
  rw [profLegal_eq_isSome] at h
  obtain ⟨p, hp⟩ := Option.isSome_iff_exists.mp h
  exact ⟨p, profileCode_of_profileOf hp⟩

namespace Machine

/-! ### The code a command leaves in `ERR` -/

/-- The value of `ERR` after a check made with `ERR` = 0: the code of the error it raises, or 0 when it passes. -/
def errAfter (c : Option ErrCode) : Word := c.elim 0 errCode

theorem errAfter_checkOpen (s : State) : errAfter (checkOpen s) = if s.kda then 0 else 2 := by
  cases hk : s.kda
  · rw [checkOpen_some hk]; rfl
  · rw [checkOpen_none hk]; rfl

theorem errAfter_checkSeeded (g : Gen) (s : State) :
    errAfter (checkSeeded g s) = if genSeeded g s then 0 else 3 := by
  cases hg : genSeeded g s
  · rw [checkSeeded_some hg]; rfl
  · rw [checkSeeded_none hg]; rfl

theorem errAfter_checkFits (s : State) : errAfter (checkFits s) = if s.arg0.toNat > 1048576 then 4 else 0 := by
  split
  next h => rw [checkFits_some h]; rfl
  next h => rw [checkFits_none (Nat.le_of_not_lt h)]; rfl

theorem errAfter_checkPosition (s : State) : errAfter (checkPosition s) =
    if s.pv = false then 5 else if s.arg0.toNat ≥ s.npix.toNat then 6 else 0 := by
  split
  next hp => rw [checkPosition_noperm hp]; rfl
  next hp =>
    rw [Bool.not_eq_false] at hp
    split
    next hi => rw [checkPosition_index hp hi]; rfl
    next hi => rw [checkPosition_none hp (Nat.lt_of_not_le hi)]; rfl

theorem errAfter_checkAddr (s : State) : errAfter (checkAddr s) = if s.arg0.toNat ≥ 4194304 then 7 else 0 := by
  split
  next h => rw [checkAddr_some h]; rfl
  next h => rw [checkAddr_none (Nat.lt_of_not_le h)]; rfl

/-! ### The checks of the commands a word decodes to -/

theorem commandCheck_ccEmb {prof : BitVec 2} (h : profLegal prof = true) (bit : Bool) (s : State) :
    commandCheck (.ccEmb prof bit) s = none := by
  obtain ⟨p, rfl⟩ := exists_profileCode_of_profLegal h
  rw [commandCheck, profileOf_profileCode, Option.elim_some]

theorem commandCheck_ccExt {prof : BitVec 2} (h : profLegal prof = true) (s : State) :
    commandCheck (.ccExt prof) s = none := by
  obtain ⟨p, rfl⟩ := exists_profileCode_of_profLegal h
  rw [commandCheck, profileOf_profileCode, Option.elim_some]

theorem takesPosition_pxEmb {prof : BitVec 2} (h : profLegal prof = true) (ch : Channel) (bit : Bool) :
    TakesPosition (.pxEmb ch prof bit) := by
  obtain ⟨p, rfl⟩ := exists_profileCode_of_profLegal h
  exact .inr (.inl ⟨ch, p, bit, rfl⟩)

theorem takesPosition_pxExt {prof : BitVec 2} (h : profLegal prof = true) (ch : Channel) :
    TakesPosition (.pxExt ch prof) := by
  obtain ⟨p, rfl⟩ := exists_profileCode_of_profLegal h
  exact .inr (.inr ⟨ch, p, rfl⟩)

/-! ### A word with `ERR` = 0 -/

theorem issueWord_of_decode {w : Word} {i : Instr} (hd : decode w = .cmd i) (s : State) :
    issueWord w s = exec i s := by
  simp only [issueWord, issueWordBy, hd]

/-- What a legal word leaves in `ERR` is what its command's check says. -/
theorem issueWord_err {w : Word} {i : Instr} {s t : State} (hd : decode w = .cmd i) (he : s.err = 0)
    (h : issueWord w s = .next t) : t.err = errAfter (commandCheck i s) := by
  rw [issueWord_of_decode hd] at h
  cases hc : commandCheck i s with
  | none =>
    obtain rfl := Host.Outcome.next.inj ((exec_passed he hc).symm.trans h)
    exact commandEffect_err he
  | some c =>
    obtain rfl := Host.Outcome.next.inj ((exec_raised he hc).symm.trans h)
    exact raiseErr_err c (encode i) s

/-! ### Error-stop -/

theorem runsInErrorStop_iff {i : Instr} : runsInErrorStop i = true ↔ i = .nop ∨ i = .clr ∨ i = .clrErr := by
  cases i <;> simp [runsInErrorStop]

theorem exec_clr (s : State) : exec .clr s = .next (softReset s) :=
  execFor_params ▸ execFor_eq_effect params (i := .clr) rfl s

/-- All that a word can do in error-stop: nothing, or what `CLR` or `CLRERR` does. `NOP` runs, and does nothing. -/
theorem issueWord_errorStop_cases (w : Word) {s : State} (he : s.err ≠ 0) : issueWord w s = .next s ∨
    (decode w = .cmd .clr ∧ issueWord w s = .next (softReset s)) ∨
    (decode w = .cmd .clrErr ∧ issueWord w s = .next (clearErr s)) := by
  cases hd : decode w with
  | illegal why => exact .inl ((issueWord_illegal hd s).trans (runCommand_stopped he))
  | cmd i =>
    rw [issueWord_of_decode hd]
    cases hr : runsInErrorStop i with
    | false => exact .inl (exec_stopped hr he)
    | true =>
      obtain rfl | rfl | rfl := runsInErrorStop_iff.mp hr
      · exact .inl (exec_nop s)
      · exact .inr (.inl ⟨rfl, exec_clr s⟩)
      · exact .inr (.inr ⟨rfl, exec_clrErr s⟩)

/-- In error-stop no word reports a new error. -/
theorem issueWord_errorStop_err {w : Word} {s t : State} (he : s.err ≠ 0) (h : issueWord w s = .next t) :
    t.err = s.err ∨ t.err = 0 := by
  rcases issueWord_errorStop_cases w he with hx | ⟨-, hx⟩ | ⟨-, hx⟩
  all_goals obtain rfl := Host.Outcome.next.inj (hx.symm.trans h)
  · exact .inl rfl
  · exact .inr (softReset_err s)
  · exact .inr (clearErr_err s)

theorem status_softReset (s : State) : status (softReset s) = 0 := by
  simp [status, errF, flagWord]

/-- After `CLR` every register but the constant ID reads 0. -/
theorem readReg_softReset {r : Reg} (hr : r ≠ .id) (s : State) : readReg r (softReset s) = 0 := by
  cases r with
  | id => exact absurd rfl hr
  | status => exact status_softReset s
  | _ => rfl

theorem memRead_softReset (s : State) (a : Nat) : memRead (softReset s) a = memRead s a := rfl

theorem readOffset_regOffset (r : Reg) (s : State) : readOffset (regOffset r) s = readReg r s := by
  simp only [readOffset, regAt_regOffset]

theorem takeInput_read_regOffset (r : Reg) (s : State) :
    takeInput (.read .word (regOffset r)) s = .next { s with reply := some (readReg r s) } := by
  rw [takeInput, takeInputBy_read_aligned (regOffset_aligned r), readOffset_regOffset]

theorem takeInput_write_regOffset (r : Reg) (v : Word) (s : State) :
    takeInput (.write .word (regOffset r) v) s = writeOffset (regOffset r) v s :=
  takeInputBy_write_aligned (regOffset_aligned r) exec v s

theorem writeOffset_arg0 (v : Word) (s : State) : writeOffset (regOffset .arg0) v s = .next { s with arg0 := v } := by
  simp only [writeOffset, writeOffsetBy, regAt_regOffset]

theorem writeOffset_arg1 (v : Word) (s : State) : writeOffset (regOffset .arg1) v s = .next { s with arg1 := v } := by
  simp only [writeOffset, writeOffsetBy, regAt_regOffset]

/-! ### The obligations -/

/-- Settles O17: a word that leaves `ERR` not 0 did error entry, and error entry is these two writes. -/
theorem errorEntryIsPrecise : Obligations.ErrorEntryIsPrecise :=
  fun _ _ _ he h ht => issueWord_eq_raiseErr he h ht

/-- Settles O18: `ERR` afterwards is the code of the command's check, which command by command is the table's; what else
error entry writes is `ERRCMD`. An illegal word is the check that always fails. -/
theorem eachErrorIsRaisedExactlyWhen : Obligations.EachErrorIsRaisedExactlyWhen := by
  refine ⟨fun w i s hd he => ?_, fun w why s hd he => issueWord_illegal_raises hd he⟩
  obtain ⟨t, h⟩ : ∃ t, issueWord w s = .next t := issueWord_of_decode hd s ▸ exec_next i s
  refine ⟨t, h, fun ht => ?_, ?_⟩
  · obtain ⟨c, rfl⟩ := issueWord_eq_raiseErr he h ht
    exact ⟨rfl, rfl, rfl⟩
  · have hwf : i.wellFormed = true := (encode_of_decode hd).1
    rw [issueWord_err hd he h]
    cases i with
    | nop | clr | clrErr | kdInit | rngSeed _ => rfl
    | kdAbs _ | kdFin => exact errAfter_checkOpen s
    | rngNext g => cases g <;> exact errAfter_checkSeeded _ s
    | pgShuf => exact errAfter_checkFits s
    | pgRd => exact errAfter_checkPosition s
    | ccEmb prof bit => rw [commandCheck_ccEmb hwf]; rfl
    | ccExt prof => rw [commandCheck_ccExt hwf]; rfl
    | pxEmb ch prof bit =>
      rw [commandCheck_of_takesPosition (takesPosition_pxEmb hwf ch bit)]
      exact errAfter_checkPosition s
    | pxExt ch prof =>
      rw [commandCheck_of_takesPosition (takesPosition_pxExt hwf ch)]
      exact errAfter_checkPosition s
    | cvWr _ | cvRd => exact errAfter_checkAddr s

/-- Settles O20: error-stop comes first and lets no check happen; the decoder rejects a word before its command has a
check; and the check of a position asks for the permutation before the position. -/
theorem errorPriority : Obligations.ErrorPriority := by
  refine ⟨fun _ _ _ => issueWord_errorStop_err, fun w why s he hd => ⟨_, issueWord_illegal_raises hd he, rfl⟩,
    fun ch bit => ⟨⟨_, decode_encode_pxEmb_three ch bit⟩, ⟨_, decode_encode_pxExt_three ch⟩⟩, ?_⟩
  intro w i s he hp hd hi
  have hwf : i.wellFormed = true := (encode_of_decode hd).1
  have hpos : TakesPosition i := by
    obtain rfl | ⟨ch, prof, bit, rfl⟩ | ⟨ch, prof, rfl⟩ := hi
    · exact .inl rfl
    · exact takesPosition_pxEmb hwf ch bit
    · exact takesPosition_pxExt hwf ch
  exact ⟨_, (issueWord_of_decode hd s).trans (exec_position_noperm he hpos hp), rfl⟩

/-- Settles O19: only the three commands get past error-stop, each with the writes it always does; a read or a write of
ARG0 or ARG1 does not look at `ERR`. -/
theorem errorStopIgnoresAllButThreeCommands : Obligations.ErrorStopIgnoresAllButThreeCommands := by
  intro s he
  refine ⟨fun w _ hclr hclrErr => ?_, fun w hd => ?_, fun w hd => ?_, fun w hd => ?_,
    fun r => ⟨readOffset_regOffset r s, takeInput_read_regOffset r s⟩,
    fun v => (takeInput_write_regOffset .arg0 v s).trans (writeOffset_arg0 v s),
    fun v => (takeInput_write_regOffset .arg1 v s).trans (writeOffset_arg1 v s)⟩
  · rcases issueWord_errorStop_cases w he with hx | ⟨hd, -⟩ | ⟨hd, -⟩
    · exact hx
    · exact absurd hd hclr
    · exact absurd hd hclrErr
  · exact (issueWord_of_decode hd s).trans (exec_nop s)
  · exact (issueWord_of_decode hd s).trans (exec_clrErr s)
  · exact ⟨softReset s, (issueWord_of_decode hd s).trans (exec_clr s), fun r hr => readReg_softReset hr s,
      memRead_softReset s⟩

end Machine

end Sys2Proof
end

section
/-! The command word (30_encoding.md): decoding and encoding are inverse on the legal words, and the worked words of the
spec. -/

namespace Sys2Proof

/-- Settles O1: the fields of an encoded command are those its line of the decoder takes its operands from. -/
theorem decodeOfEncodeIsTheCommand : Obligations.DecodeOfEncodeIsTheCommand :=
  fun _ => decode_encode_of_wellFormed

/-- Settles O2: each line of the decoder demands of the fields what the encoder puts there. -/
theorem encodeOfDecodeIsTheWord : Obligations.EncodeOfDecodeIsTheWord :=
  fun _ _ => encode_of_decode

/-- Settles O4: the decoder run on the twelve words; the four rejected ones have `PROF` = 3, an operand bit on `KD.INIT`,
bit 17 on `RNG.NEXT`, and an unlisted `OPC`. -/
theorem workedEncodingsDecode : Obligations.WorkedEncodingsDecode :=
  ⟨by decide, by decide, by decide, by decide, by decide, by decide, by decide, ⟨.reservedProfile, by decide⟩,
    ⟨.strayBit, by decide⟩, ⟨.strayBit, by decide⟩, by decide, ⟨.unknownOpcode, by decide⟩⟩

end Sys2Proof
end

section
/-! The generator sequence (42_rng.md R137): after `m` draws the state word is the seed plus `m` increments modulo 2^32;
its period, the draws and the shuffle's draws follow from that. -/

namespace Sys2Proof.Machine

/-! ### The state word after `m` draws -/

theorem stateAfter_zero (P : Params) (a : Word) : stateAfter P 0 a = a := rfl

theorem stateAfter_succ (P : Params) (m : Nat) (a : Word) :
    stateAfter P (m + 1) a = stateAfter P m (a + P.rngInc) := rfl

theorem stateAfter_succ_eq_add (P : Params) (m : Nat) (a : Word) :
    stateAfter P (m + 1) a = stateAfter P m a + P.rngInc :=
  Function.iterate_succ_apply' _ m a

theorem stateAfter_add (P : Params) (m k : Nat) (a : Word) :
    stateAfter P (m + k) a = stateAfter P m (stateAfter P k a) :=
  Function.iterate_add_apply _ m k a

/-- The state sequence in closed form. -/
theorem stateAfter_eq (P : Params) (m : Nat) (a : Word) :
    stateAfter P m a = BitVec.ofNat 32 (a.toNat + m * P.rngInc.toNat) := by
  induction m with
  | zero => simp [stateAfter_zero]
  | succ m ih =>
    rw [stateAfter_succ_eq_add, ih]
    apply BitVec.eq_of_toNat_eq
    simp [Nat.succ_mul, Nat.add_assoc]

/-! ### The period -/

/-- An odd number has no factor in common with 2^32. -/
theorem coprime_of_odd {c : Nat} (hc : c % 2 = 1) : Nat.Coprime (2 ^ 32) c :=
  Nat.Coprime.pow_left 32 (Nat.coprime_two_left.mpr (Nat.odd_iff.mpr hc))

/-- The state word returns to itself when the increments taken are a multiple of 2^32. -/
theorem stateAfter_eq_self_iff (P : Params) (m : Nat) (a : Word) :
    stateAfter P m a = a ↔ 2 ^ 32 ∣ m * P.rngInc.toNat := by
  have ha : a.toNat % 2 ^ 32 = a.toNat := Nat.mod_eq_of_lt a.isLt
  rw [stateAfter_eq, ← BitVec.toNat_inj, BitVec.toNat_ofNat]
  omega

section

variable {P : Params} (hP : P.rngInc.toNat % 2 = 1)
include hP

theorem stateAfter_period (m : Nat) (a : Word) : stateAfter P m a = a ↔ 2 ^ 32 ∣ m :=
  (stateAfter_eq_self_iff P m a).trans (coprime_of_odd hP).dvd_mul_right

/-- `m` draws bridge the distance from `a` to `b`, where `m` is the distance divided by the increment modulo 2^32. -/
theorem exists_stateAfter_eq (a b : Word) : ∃ m < 2 ^ 32, stateAfter P m a = b := by
  obtain ⟨k, -, hk⟩ := Nat.exists_mul_mod_eq_one_of_coprime (coprime_of_odd hP).symm (by norm_num)
  refine ⟨(b - a).toNat * k % 2 ^ 32, Nat.mod_lt _ (by norm_num), ?_⟩
  have hsteps : (b - a).toNat * k % 2 ^ 32 * P.rngInc.toNat ≡ (b - a).toNat [MOD 2 ^ 32] := calc
    _ ≡ (b - a).toNat * k * P.rngInc.toNat [MOD 2 ^ 32] := (Nat.mod_modEq _ _).mul_right _
    _ = (b - a).toNat * (P.rngInc.toNat * k) := by ring
    _ ≡ (b - a).toNat * 1 [MOD 2 ^ 32] := Nat.ModEq.mul_left _ (hk.trans (Nat.mod_eq_of_lt (by norm_num)).symm)
    _ = (b - a).toNat := mul_one _
  rw [stateAfter_eq]
  apply BitVec.eq_of_toNat_eq
  rw [BitVec.toNat_ofNat, hsteps.add_left a.toNat, ← BitVec.toNat_add, BitVec.add_comm, BitVec.sub_add_cancel]

end

/-- Settles O29: the state sequence is an arithmetic progression modulo 2^32 whose odd increment has an inverse; a draw is
a function of the state word it leaves. -/
theorem generatorPeriodIsFull : Obligations.GeneratorPeriodIsFull := by
  rintro P ⟨-, -, -, -, -, -, hinc⟩
  refine ⟨exists_stateAfter_eq hinc, fun a m => stateAfter_period hinc m a, fun a m hm => ?_, fun a m hm => ?_⟩
  · have hround : stateAfter P (2 ^ 32) a = a := (stateAfter_period hinc _ a).mpr (dvd_refl _)
    rw [drawNumber, drawNumber, Nat.sub_add_comm hm, stateAfter_add, hround]
  · obtain ⟨k, rfl⟩ := Nat.exists_eq_add_of_le' hm
    rw [drawNumber, drawNumber, Nat.add_sub_cancel, Nat.add_sub_cancel, stateAfter_succ]

/-! ### The draws of the commands -/

/-- The loop of the shuffle takes one draw for each iteration. -/
theorem fyLoop_stateWord (P : Params) (i : Nat) (a : Word) (p : List Nat) : (fyLoop P i a p).2 = stateAfter P i a := by
  induction i generalizing a p with
  | zero => rfl
  | succ i ih => rw [fyLoop, ih]; rfl

theorem fy_stateWord (P : Params) (n : Nat) (seed : Word) : (fy P n seed).2 = stateAfter P (n - 1) seed :=
  fyLoop_stateWord P (n - 1) seed _

/-- Settles O34: the loop from `n-1` down to 1 takes one draw for each of its iterations, and a successful `PG.SHUF` puts
the last state word into `A0`. -/
theorem generatorAfterAShuffle : Obligations.GeneratorAfterAShuffle := by
  have hfy (P : Params) (n : Nat) (seed : Word) :
      (fy P n seed).2 = BitVec.ofNat 32 (seed.toNat + (n - 1) * P.rngInc.toNat) := by
    rw [fy_stateWord, stateAfter_eq]
  refine ⟨hfy, fun P ex s t hex he h ht => ?_⟩
  obtain rfl := execution_eq_execFor hex
  obtain ⟨-, rfl⟩ := eq_shuffle_of_success he h ht
  rw [shuffle_a0, hfy, arg0Nat]

theorem execAll_cons {ex : Execution} {i : Instr} {s t : State} (h : ex i s = .next t) (l : List Instr) :
    execAll ex (i :: l) s = execAll ex l t := by
  simp only [execAll, h]

section

variable (P : Params) (g : Gen) (s : State)

theorem drawGen_err : (drawGen P g s).err = s.err := by cases g <;> rfl

theorem genSeeded_drawGen : genSeeded g (drawGen P g s) = genSeeded g s := by cases g <;> rfl

theorem genState_drawGen : genState g (drawGen P g s) = genState g s + P.rngInc := by cases g <;> rfl

theorem drawGen_res : (drawGen P g s).res = P.rngOut (genState g s + P.rngInc) := rfl

theorem seedGen_err : (seedGen g s).err = s.err := by cases g <;> rfl

theorem genSeeded_seedGen : genSeeded g (seedGen g s) = true := by cases g <;> rfl

theorem genState_seedGen : genState g (seedGen g s) = s.arg0 := by cases g <;> rfl

theorem genState_iterate_drawGen (m : Nat) :
    genState g ((drawGen P g)^[m] s) = stateAfter P m (genState g s) := by
  induction m with
  | zero => rfl
  | succ m ih => rw [Function.iterate_succ_apply', genState_drawGen, ih, stateAfter_succ_eq_add]

/-- The last of `m` draws is the output of the state word after `m` draws. -/
theorem res_iterate_drawGen {m : Nat} (hm : 1 ≤ m) :
    ((drawGen P g)^[m] s).res = P.rngOut (stateAfter P m (genState g s)) := by
  obtain ⟨k, rfl⟩ := Nat.exists_eq_add_of_le' hm
  rw [Function.iterate_succ_apply', drawGen_res, genState_iterate_drawGen, stateAfter_succ_eq_add]

end

/-- `m` times `RNG.NEXT g` on a seeded generator is `m` draws. -/
theorem execAll_rngNext (P : Params) {g : Gen} {s : State} (he : s.err = 0) (hv : genSeeded g s = true) (m : Nat) :
    execAll (execFor P) (List.replicate m (.rngNext g)) s = .next ((drawGen P g)^[m] s) := by
  induction m generalizing s with
  | zero => rfl
  | succ m ih =>
    rw [List.replicate_succ, execAll_cons (execFor_rngNext_seeded he P hv), Function.iterate_succ_apply]
    exact ih ((drawGen_err P g s).trans he) ((genSeeded_drawGen P g s).trans hv)

/-- Settles O28: the seeded generator stands at `ARG0`, each draw adds one increment, and `RES` is the output of the
word it leaves. -/
theorem drawsFollowTheStateSequence : Obligations.DrawsFollowTheStateSequence := by
  intro P ex g m s hex he
  obtain rfl := execution_eq_execFor hex
  have hseeded := execAll_rngNext P ((seedGen_err g s).trans he) (genSeeded_seedGen g s) m
  refine ⟨_, (execAll_cons (execFor_rngSeed he P g) _).trans hseeded, ?_, fun hm => ?_⟩
  · rw [genState_iterate_drawGen, genState_seedGen, stateAfter_eq]
  · rw [res_iterate_drawGen P g _ hm, genState_seedGen, stateAfter_eq]

end Sys2Proof.Machine
end

section
/-! The whole key derivation (41_key_derivation.md R115): `KD.INIT`, one `KD.ABS` for each code unit, `KD.FIN`. -/

namespace Sys2Proof.Machine

/-- The state after the code units `l` are absorbed: the accumulators folded over them, and their number counted. -/
def kdAbsorbAll (P : Params) (l : List CodeUnit) (s : State) : State :=
  { s with h := l.foldl (kdRound P) s.h, klen := s.klen + BitVec.ofNat 32 l.length }

theorem kdAbsorbAll_nil (P : Params) (s : State) : kdAbsorbAll P [] s = s := by simp [kdAbsorbAll]

theorem kdAbsorbAll_cons (P : Params) (k : CodeUnit) (l : List CodeUnit) (s : State) :
    kdAbsorbAll P (k :: l) s = kdAbsorbAll P l (kdAbsorb P k s) := by
  have hcount : s.klen + BitVec.ofNat 32 (l.length + 1) = s.klen + 1 + BitVec.ofNat 32 l.length := by
    rw [BitVec.add_assoc, Nat.add_comm, BitVec.ofNat_add, BitVec.ofNat_eq_ofNat]
  simp only [kdAbsorbAll, kdAbsorb, List.foldl_cons, List.length_cons, hcount]

/-- With a derivation open the `KD.ABS` of a list are absorbed one after another, before what follows them. -/
theorem execAll_kdAbs (P : Params) (l : List CodeUnit) (rest : List Instr) {s : State} (he : s.err = 0)
    (hd : s.kda = true) :
    execAll (execFor P) (l.map Instr.kdAbs ++ rest) s = execAll (execFor P) rest (kdAbsorbAll P l s) := by
  induction l generalizing s with
  | nil => rw [kdAbsorbAll_nil]; rfl
  | cons k l ih =>
    rw [List.map_cons, List.cons_append, execAll_cons (execFor_kdAbs_open he P k hd), kdAbsorbAll_cons]
    exact ih he hd

/-- Settles O25: `KD.INIT` opens the derivation whatever went before, so every `KD.ABS` absorbs its code unit and `KD.FIN`
closes. -/
theorem derivationIsTheFoldOfTheRounds : Obligations.DerivationIsTheFoldOfTheRounds := by
  intro P ex password s hex he
  obtain rfl := execution_eq_execFor hex
  rw [execAll_cons (execFor_kdInit he P), execAll_kdAbs P password [.kdFin] (s := kdOpen P s) he rfl,
    execAll_cons (execFor_kdFin_open (s := kdAbsorbAll P password (kdOpen P s)) he P rfl)]
  simp [execAll, kdClose, kdAbsorbAll, kdOpen]

end Sys2Proof.Machine
end

section
/-! The invariants of 10_state.md R48, and the form of the model's two lists (R43, R44). A property that the host's port
keeps and every command's writes keep is kept by every step; each of the two is then a matter of the writes. -/

namespace Sys2Proof.Machine

/-! ### What a step keeps -/

/-- `J` is kept by what is no command: error entry, the hardware reset, and a change of the operands and of the model's
own fields `inputs` and `reply`. -/
structure KeptByPort (J : State → Prop) : Prop where
  raise : ∀ c w s, J s → J (raiseErr c w s)
  reset : ∀ s, J s → J (hwReset s)
  access : ∀ x y inputs reply s, J s → J { s with arg0 := x, arg1 := y, inputs := inputs, reply := reply }

section

variable {P : Params} {J : State → Prop} (hport : KeptByPort J)
  (heffect : ∀ i s, J s → (runsInErrorStop i = true ∨ (s.err = 0 ∧ commandCheck i s = none)) → J (commandEffect P i s))
include hport heffect

theorem execFor_keeps {i : Instr} {s t : State} (hs : J s) (h : execFor P i s = .next t) : J t := by
  rcases execFor_cases h with ⟨rfl, hrun⟩ | ⟨c, -, -, -, rfl⟩ | ⟨-, -, rfl⟩
  · exact heffect i s hs hrun
  · exact hport.raise c _ s hs
  · exact hs

theorem stepFor_keeps {s t : State} (hs : J s) (h : stepFor P s = .next t) : J t := by
  rcases takeNextBy_cases h with ⟨-, rfl⟩ | ⟨u, ⟨rest, rfl⟩, hu⟩
  · exact hs
  · have access (x y : Word) (r : Option Word) : J { s with arg0 := x, arg1 := y, inputs := rest, reply := r } :=
      hport.access x y rest r s hs
    rcases hu with ⟨v, rfl⟩ | rfl | ⟨v, rfl⟩ | ⟨v, rfl⟩ | ⟨w, hw⟩ | rfl
    · exact access s.arg0 s.arg1 (some v)
    · exact access s.arg0 s.arg1 none
    · exact access v s.arg1 none
    · exact access s.arg0 v none
    · have hidle := access s.arg0 s.arg1 none
      rcases issueWordBy_cases hw with ⟨i, -, hx⟩ | ⟨-, -, ⟨-, rfl⟩ | ⟨-, rfl⟩⟩
      · exact execFor_keeps hport heffect hidle hx
      · exact hport.raise .illcmd w _ hidle
      · exact hidle
    · exact hport.reset _ (access s.arg0 s.arg1 none)

end

/-! ### The commands whose writes are `RES` and at most one byte of CANVAS -/

/-- The commands whose one write is `RES`. -/
def writesResOnly : Instr → Bool
  | .pgRd => true
  | .ccEmb _ _ => true
  | .ccExt _ => true
  | .pxExt _ _ => true
  | .cvRd => true
  | _ => false

theorem commandEffect_of_writesResOnly (P : Params) {i : Instr} (h : writesResOnly i = true) (s : State) :
    ∃ v, commandEffect P i s = setRes v s := by
  cases i with
  | pgRd | cvRd => exact ⟨_, rfl⟩
  | ccEmb prof _ | ccExt prof | pxExt _ prof =>
    simp only [commandEffect]
    cases profileOf prof with
    | none => exact ⟨s.res, rfl⟩
    | some p => exact ⟨_, rfl⟩
  | _ => cases h

/-- `PX.EMB` writes `RES` and the selected byte, and with `PROF` = 3 nothing. -/
theorem commandEffect_pxEmb (P : Params) (ch : Channel) (prof : BitVec 2) (bit : Bool) (s : State) :
    commandEffect P (.pxEmb ch prof bit) s = s ∨
      ∃ v b, commandEffect P (.pxEmb ch prof bit) s = setRes v (memWrite (selectedAddr ch s) b s) := by
  simp only [commandEffect]
  cases profileOf prof with
  | none => exact .inl rfl
  | some p => exact .inr ⟨_, _, rfl⟩

/-! ### The invariants -/

/-- STATUS has six bits (10_state.md R26). -/
theorem status_getLsbD_of_ge (s : State) {k : Nat} (hk : 6 ≤ k) : (status s).getLsbD k = false := by
  obtain ⟨j, rfl⟩ := Nat.exists_eq_add_of_le' hk
  simp [status_getLsbD]

/-- What of the state the invariants speak of. -/
def invView (s : State) : Word × Word × Word × Bool × Bool × Bool × List PermEntry × Nat :=
  (s.err, s.errcmd, s.npix, s.pv, s.kda, s.seedv, s.perm, s.epoch)

theorem Inv.congr {s t : State} (h : Inv s) (heq : invView t = invView s) : Inv t := by
  simp only [invView, Prod.mk.injEq] at heq
  obtain ⟨herr, herrcmd, hnpix, hpv, hkda, hseedv, hperm, hepoch⟩ := heq
  have hread : permRead t = permRead s := by funext i; rw [permRead, permRead, hperm, hepoch]
  exact {
    err_high := herr ▸ h.err_high
    errcmd_zero := by rw [herr, herrcmd]; exact h.errcmd_zero
    perm_valid := by rw [hpv, PermValid, hnpix, hread]; exact h.perm_valid
    npix_zero := by rw [hpv, hnpix]; exact h.npix_zero
    status_high := fun _ => status_getLsbD_of_ge t
    seeds_stale := by rw [hkda, hseedv]; exact h.seeds_stale }

/-- With no error, no permutation and no pixels there is nothing to hold but that an open derivation has no seeds. -/
theorem inv_of_cleared {s : State} (he : s.err = 0) (hc : s.errcmd = 0) (hp : s.pv = false) (hn : s.npix = 0)
    (hk : s.kda = true → s.seedv = false) : Inv s where
  err_high := by simp [he]
  errcmd_zero _ := hc
  perm_valid h := by simp [hp] at h
  npix_zero _ := hn
  status_high _ := status_getLsbD_of_ge s
  seeds_stale := hk

theorem inv_raiseErr {s : State} (h : Inv s) (c : ErrCode) (w : Word) : Inv (raiseErr c w s) where
  err_high := errCode_lt c
  errcmd_zero he := absurd he (errCode_ne_zero c)
  perm_valid := h.perm_valid
  npix_zero := h.npix_zero
  status_high _ := status_getLsbD_of_ge _
  seeds_stale := h.seeds_stale

theorem inv_clearErr {s : State} (h : Inv s) : Inv (clearErr s) where
  err_high := by simp
  errcmd_zero _ := rfl
  perm_valid := h.perm_valid
  npix_zero := h.npix_zero
  status_high _ := status_getLsbD_of_ge _
  seeds_stale := h.seeds_stale

theorem inv_shuffle {P : Params} {s : State} (h : Inv s) (hn : s.arg0.toNat ≤ 1048576) : Inv (shuffle P s) where
  err_high := h.err_high
  errcmd_zero := h.errcmd_zero
  perm_valid _ := ⟨hn, shuffle_permValid P hn⟩
  npix_zero hp := by simp at hp
  status_high _ := status_getLsbD_of_ge _
  seeds_stale := h.seeds_stale

/-- `KD.INIT` opens a derivation and drops the seeds; `KD.FIN` closes it: either way (f) holds afterwards. -/
theorem inv_of_kda_seedv {s : State} (h : Inv s) {kda seedv : Bool} (hk : kda = true → seedv = false) :
    Inv { s with kda := kda, seedv := seedv } where
  err_high := h.err_high
  errcmd_zero := h.errcmd_zero
  perm_valid := h.perm_valid
  npix_zero := h.npix_zero
  status_high _ := status_getLsbD_of_ge _
  seeds_stale := hk

theorem le_nmax_of_checkFits_none {s : State} (h : checkFits s = none) : s.arg0.toNat ≤ 1048576 := by
  by_contra hn
  exact Option.some_ne_none _ ((checkFits_some (Nat.lt_of_not_le hn)).symm.trans h)

theorem lt_canvasBytes_of_checkAddr_none {s : State} (h : checkAddr s = none) : s.arg0.toNat < 4194304 := by
  by_contra ha
  exact Option.some_ne_none _ ((checkAddr_some (Nat.le_of_not_lt ha)).symm.trans h)

theorem inv_commandEffect {P : Params} {i : Instr} {s : State} (h : Inv s)
    (hrun : runsInErrorStop i = true ∨ (s.err = 0 ∧ commandCheck i s = none)) : Inv (commandEffect P i s) := by
  by_cases hres : writesResOnly i = true
  · obtain ⟨v, hv⟩ := commandEffect_of_writesResOnly P hres s
    exact h.congr (by rw [hv]; rfl)
  cases i with
  | nop => exact h
  | clr => exact inv_of_cleared rfl rfl rfl rfl (fun _ => rfl)
  | clrErr => exact inv_clearErr h
  | kdInit => exact (inv_of_kda_seedv h (kda := true) (seedv := false) fun _ => rfl).congr rfl
  | kdAbs k => exact h.congr rfl
  | kdFin => exact (inv_of_kda_seedv h (kda := false) (seedv := true) nofun).congr rfl
  | rngSeed g => cases g <;> exact h.congr rfl
  | rngNext g => cases g <;> exact h.congr rfl
  | pgShuf =>
    obtain hrun | ⟨-, hc⟩ := hrun
    · cases hrun
    · exact inv_shuffle h (le_nmax_of_checkFits_none hc)
  | pxEmb ch prof bit =>
    obtain hnone | ⟨v, b, hv⟩ := commandEffect_pxEmb P ch prof bit s
    · rwa [hnone]
    · exact h.congr (by rw [hv]; rfl)
  | cvWr d => exact h.congr rfl
  | pgRd | ccEmb _ _ | ccExt _ | pxExt _ _ | cvRd => exact absurd rfl hres

theorem inv_keptByPort : KeptByPort Inv where
  raise c w _ h := inv_raiseErr h c w
  reset _ _ := inv_of_cleared rfl rfl rfl rfl nofun
  access _ _ _ _ _ h := h.congr rfl

theorem stepFor_keeps_inv {P : Params} {s t : State} (hs : Inv s) (h : stepFor P s = .next t) : Inv t :=
  stepFor_keeps inv_keptByPort (fun _ _ => inv_commandEffect) hs h

/-- Settles O55: the port keeps the invariants and so do the writes of each command; the one that makes a permutation is
`PG.SHUF`, of at most `NMAX` pixels. -/
theorem stepKeepsTheInvariants : Obligations.StepKeepsTheInvariants := by
  rw [Obligations.StepKeepsTheInvariants, ← stepFor_params]
  exact ⟨fun _ _ => stepFor_keeps_inv, fun _ _ _ => stepFor_keeps_inv⟩

/-! ### The data form -/

theorem dataForm_memWrite {a : Nat} {s : State} (h : DataForm s) (ha : a < Config.canvasBytes) (b : Byte) :
    DataForm (memWrite a b s) :=
  ⟨storeCell_wf h.canvas_wf ha, h.perm_len⟩

theorem dataForm_shuffle {P : Params} {s : State} (h : DataForm s) (hn : s.arg0.toNat ≤ 1048576) :
    DataForm (shuffle P s) := by
  refine ⟨h.canvas_wf, ?_⟩
  have hlen : s.perm.length ≤ 1048576 := h.perm_len
  have hmax : Config.nmax = 1048576 := rfl
  simp only [hmax, shuffle_perm, permWrite_perm, List.length_append, List.length_map, List.length_drop, fy_length,
    arg0Nat]
  omega

theorem dataForm_commandEffect {P : Params} {i : Instr} {s : State} (h : DataForm s)
    (hrun : runsInErrorStop i = true ∨ (s.err = 0 ∧ commandCheck i s = none)) : DataForm (commandEffect P i s) := by
  have keeps {t : State} (hcanvas : t.canvas = s.canvas) (hperm : t.perm = s.perm) : DataForm t :=
    ⟨hcanvas ▸ h.canvas_wf, hperm ▸ h.perm_len⟩
  by_cases hres : writesResOnly i = true
  · obtain ⟨v, hv⟩ := commandEffect_of_writesResOnly P hres s
    rw [hv]
    exact keeps rfl rfl
  cases i with
  | rngSeed g => cases g <;> exact keeps rfl rfl
  | rngNext g => cases g <;> exact keeps rfl rfl
  | pgShuf =>
    obtain hrun | ⟨-, hc⟩ := hrun
    · cases hrun
    · exact dataForm_shuffle h (le_nmax_of_checkFits_none hc)
  | pgRd | ccEmb _ _ | ccExt _ | pxExt _ _ | cvRd => exact absurd rfl hres
  | pxEmb ch prof bit =>
    obtain hnone | ⟨v, b, hv⟩ := commandEffect_pxEmb P ch prof bit s
    · rwa [hnone]
    · have hwrite := dataForm_memWrite h (selectedAddr_lt ch s) b
      rw [hv]
      exact ⟨hwrite.canvas_wf, hwrite.perm_len⟩
  | cvWr d =>
    obtain hrun | ⟨-, hc⟩ := hrun
    · cases hrun
    · exact dataForm_memWrite h (lt_canvasBytes_of_checkAddr_none hc) d
  | _ => exact keeps rfl rfl

theorem dataForm_nothing_written {s : State} (hc : s.canvas = []) (hp : s.perm = []) : DataForm s := by
  refine ⟨?_, ?_⟩
  · rw [hc]; exact ⟨.nil, nofun⟩
  · rw [hp]; exact Nat.zero_le _

theorem dataForm_keptByPort : KeptByPort DataForm where
  raise _ _ _ h := ⟨h.canvas_wf, h.perm_len⟩
  reset _ _ := dataForm_nothing_written rfl rfl
  access _ _ _ _ _ h := ⟨h.canvas_wf, h.perm_len⟩

/-- Settles O56: only three commands write the two lists, and each within the memory's size: an entry of PERM selects a
byte of CANVAS, `CV.WR` checks its address and `PG.SHUF` its number of pixels. -/
theorem stepKeepsTheDataForm : Obligations.StepKeepsTheDataForm := by
  rw [Obligations.StepKeepsTheDataForm, ← stepFor_params]
  exact fun _ _ => stepFor_keeps dataForm_keptByPort fun _ _ => dataForm_commandEffect

/-- Settles O54: at reset there is no error and no permutation, and nothing is written. -/
theorem resetMeetsTheInvariants : Obligations.ResetMeetsTheInvariants :=
  ⟨inv_of_cleared rfl rfl rfl rfl nofun, dataForm_nothing_written rfl rfl⟩

/-! ### A valid permutation -/

section

variable {s : State} (h : PermValid s)
include h

/-- The values below `NPIX` take up all the entries below `NPIX`: there are as many of the one as of the other. -/
theorem PermValid.permRead_lt {i : Nat} (hi : i < s.npix.toNat) : (permRead s i).toNat < s.npix.toNat := by
  choose place hplace using fun q : Fin s.npix.toNat => (h q q.isLt).exists
  have hinj : Function.Injective fun q => (⟨place q, (hplace q).1⟩ : Fin s.npix.toNat) := by
    intro q r hqr
    have heq : place q = place r := congrArg Fin.val hqr
    exact Fin.ext ((hplace q).2.symm.trans (heq ▸ (hplace r).2))
  obtain ⟨q, hq⟩ := Finite.surjective_of_injective hinj ⟨i, hi⟩
  have hqi : place q = i := congrArg Fin.val hq
  rw [← hqi, (hplace q).2]
  exact q.isLt

theorem PermValid.permRead_inj {i j : Nat} (hi : i < s.npix.toNat) (hj : j < s.npix.toNat)
    (heq : permRead s i = permRead s j) : i = j :=
  (h _ (h.permRead_lt hi)).unique ⟨hi, rfl⟩ ⟨hj, congrArg BitVec.toNat heq.symm⟩

end

/-- Settles O43: PERM below `NPIX` holds values below `NPIX` only, because it holds each of those; the channel is one of
four. -/
theorem selectedAddressIsInsideCanvas : Obligations.SelectedAddressIsInsideCanvas := by
  intro s ch hinv hp hi
  obtain ⟨-, hperm⟩ := hinv.perm_valid hp
  have hentry := hperm.permRead_lt hi
  have hch := (channelCode ch).isLt
  exact ⟨hentry, by omega, rfl, selectedAddr_lt ch s⟩

end Sys2Proof.Machine
end

section
/-! What a command changes and what it does not: the registers and flags (10_state.md R21, R37 to R40), the memories
(R43, R44), the other generator (42_rng.md R138), and what a second execution changes: nothing. -/

namespace Sys2Proof.Machine

/-! ### Who writes what -/

/-- Settles O49: error entry writes `ERR` and `ERRCMD`, and the writes of each command are those of its rule. -/
theorem onlyTheNamedCommandsWriteEachRegister : Obligations.OnlyTheNamedCommandsWriteEachRegister := by
  intro i s t h hclr
  rcases exec_cases h with ⟨rfl, -⟩ | ⟨c, -, he, -, rfl⟩ | ⟨-, -, rfl⟩
  · by_cases hres : writesResOnly i = true
    · obtain ⟨v, hv⟩ := commandEffect_of_writesResOnly params hres s
      cases i with
      | pgRd | ccEmb _ _ | ccExt _ | pxExt _ _ | cvRd => simp [hv]
      | _ => cases hres
    · cases i with
      | clr => exact absurd rfl hclr
      | rngSeed g | rngNext g => cases g <;> simp [commandEffect]
      | pgRd | ccEmb _ _ | ccExt _ | pxExt _ _ | cvRd => exact absurd rfl hres
      | pxEmb ch prof bit => rcases commandEffect_pxEmb params ch prof bit s with hv | ⟨v, b, hv⟩ <;> simp [hv]
      | _ => simp [commandEffect, canvasPoke]
  · refine ⟨⟨rfl, rfl⟩, fun _ => .inr ⟨he, errCode_ne_zero c⟩, ?_⟩
    simp
  · simp

/-- Settles O50: error entry writes neither memory, and of the commands' writes only those of `PX.EMB` and `CV.WR` go to
CANVAS, and only those of `PG.SHUF`, below `n`, to PERM. -/
theorem onlyTheNamedCommandsWriteTheMemories : Obligations.OnlyTheNamedCommandsWriteTheMemories := by
  intro i s t h
  rcases exec_cases h with ⟨rfl, -⟩ | ⟨c, -, -, -, rfl⟩ | ⟨-, -, rfl⟩
  · by_cases hres : writesResOnly i = true
    · obtain ⟨v, hv⟩ := commandEffect_of_writesResOnly params hres s
      simp [hv]
    · cases i with
      | rngSeed g | rngNext g => cases g <;> simp [commandEffect, permRead]
      | pgShuf => simpa [commandEffect] using fun q hq => permRead_shuffle_ge hq
      | pgRd | ccEmb _ _ | ccExt _ | pxExt _ _ | cvRd => exact absurd rfl hres
      | pxEmb ch prof bit => rcases commandEffect_pxEmb params ch prof bit s with hv | ⟨v, b, hv⟩ <;> simp [hv]
      | _ => simp [commandEffect, canvasPoke, permRead]
  · simp [permRead]
  · simp

/-! ### The generators -/

/-- A change `f` of the state that a command neither sees nor touches can be made before the command or after it. -/
theorem exec_commutes {i : Instr} {f : State → State} {s t u : State} (hr : runsInErrorStop i = false)
    (herr : (f s).err = s.err) (hcheck : commandCheck i (f s) = commandCheck i s)
    (heffect : commandEffect params i (f s) = f (commandEffect params i s))
    (hraise : ∀ c, raiseErr c (encode i) (f s) = f (raiseErr c (encode i) s))
    (h : exec i s = .next t) (h' : exec i (f s) = .next u) : u = f t := by
  by_cases he : s.err = 0
  · cases hc : commandCheck i s with
    | none =>
      obtain rfl := Host.Outcome.next.inj ((exec_passed he hc).symm.trans h)
      obtain rfl := Host.Outcome.next.inj ((exec_passed (herr.trans he) (hcheck.trans hc)).symm.trans h')
      exact heffect
    | some c =>
      obtain rfl := Host.Outcome.next.inj ((exec_raised he hc).symm.trans h)
      obtain rfl := Host.Outcome.next.inj ((exec_raised (herr.trans he) (hcheck.trans hc)).symm.trans h')
      exact hraise c
  · obtain rfl := Host.Outcome.next.inj ((exec_stopped hr he).symm.trans h)
    exact Host.Outcome.next.inj (h'.symm.trans (exec_stopped hr (herr ▸ he)))

/-- Another content of generator 0. -/
def withGen0 (x : Word) (b : Bool) (s : State) : State := { s with a0 := x, rv0 := b }

/-- Another content of generator 1. -/
def withGen1 (x : Word) (b : Bool) (s : State) : State := { s with a1 := x, rv1 := b }

theorem exec_keeps_gen1 {i : Instr} {s t : State} (h : exec i s = .next t)
    (hi : i = .rngSeed .g0 ∨ i = .rngNext .g0 ∨ i = .pgShuf) : t.a1 = s.a1 ∧ t.rv1 = s.rv1 := by
  rcases hi with rfl | rfl | rfl
  all_goals
    obtain ⟨-, -, -, -, -, -, -, -, ha1, hrv1, -⟩ := onlyTheNamedCommandsWriteEachRegister _ s t h nofun
    exact ⟨ha1 nofun nofun, hrv1 nofun⟩

theorem exec_keeps_gen0 {i : Instr} {s t : State} (h : exec i s = .next t)
    (hi : i = .rngSeed .g1 ∨ i = .rngNext .g1) : t.a0 = s.a0 ∧ t.rv0 = s.rv0 := by
  rcases hi with rfl | rfl
  all_goals
    obtain ⟨-, -, -, -, -, -, ha0, hrv0, -⟩ := onlyTheNamedCommandsWriteEachRegister _ s t h nofun
    exact ⟨ha0 nofun nofun nofun, hrv0 nofun nofun⟩

/-- Settles O51: the frame is that of O49; and neither the check nor the writes of a command on one generator look at the
other. -/
theorem generatorsAreIndependent : Obligations.GeneratorsAreIndependent := by
  refine ⟨fun s t i h => ⟨exec_keeps_gen1 h, exec_keeps_gen0 h⟩, fun s t u x b i hi h h' => ?_,
    fun s t u x b i hi h h' => ?_⟩
  · rcases hi with rfl | rfl
    all_goals exact exec_commutes (f := withGen0 x b) rfl rfl rfl rfl (fun _ => rfl) h h'
  · rcases hi with rfl | rfl | rfl
    all_goals exact exec_commutes (f := withGen1 x b) rfl rfl rfl rfl (fun _ => rfl) h h'

/-! ### A second execution -/

theorem embedBit_embedBit (p : Profile) (b : Byte) (bit : Bool) :
    embedBit p (embedBit p b bit) bit = embedBit p b bit := by
  cases p with
  | lsb => revert b bit; decide
  | sentinel => rfl
  | fullValue => rfl

theorem permWrite_permWrite (p : List Nat) (s : State) : permWrite p (permWrite p s) = permWrite p s := by
  simp [permWrite]

theorem shuffle_shuffle (P : Params) (s : State) : shuffle P (shuffle P s) = shuffle P s := by
  have hperm := congrArg State.perm (permWrite_permWrite (fy P s.arg0.toNat s.arg1).1 s)
  exact State.ext rfl rfl rfl rfl rfl rfl rfl rfl rfl rfl rfl rfl rfl rfl rfl rfl hperm rfl rfl rfl rfl

theorem memWrite_memWrite (a : Nat) (b : Byte) (s : State) : memWrite a b (memWrite a b s) = memWrite a b s := by
  simp only [memWrite, storeCell_storeCell]

theorem pxEmbed_pxEmbed (ch : Channel) (p : Profile) (bit : Bool) (s : State) :
    pxEmbed ch p bit (pxEmbed ch p bit s) = pxEmbed ch p bit s := by
  have hnew : embedBit p (memRead (pxEmbed ch p bit s) (selectedAddr ch s)) bit =
      embedBit p (memRead s (selectedAddr ch s)) bit := by
    rw [memRead_pxEmbed_selected, embedBit_embedBit]
  calc pxEmbed ch p bit (pxEmbed ch p bit s)
    _ = setRes (byteResult (embedBit p (memRead (pxEmbed ch p bit s) (selectedAddr ch s)) bit))
        (memWrite (selectedAddr ch s) (embedBit p (memRead (pxEmbed ch p bit s) (selectedAddr ch s)) bit)
          (pxEmbed ch p bit s)) := rfl
    _ = setRes (byteResult (embedBit p (memRead s (selectedAddr ch s)) bit))
        (memWrite (selectedAddr ch s) (embedBit p (memRead s (selectedAddr ch s)) bit)
          (memWrite (selectedAddr ch s) (embedBit p (memRead s (selectedAddr ch s)) bit) s)) := by
      rw [hnew]; rfl
    _ = pxEmbed ch p bit s := by rw [memWrite_memWrite]; rfl

/-- The commands that 41_key_derivation.md and 42_rng.md do not call idempotent. -/
def Accumulates (i : Instr) : Prop := (∃ k, i = .kdAbs k) ∨ i = .kdFin ∨ ∃ g, i = .rngNext g

theorem commandEffect_idempotent (P : Params) {i : Instr} (h : ¬ Accumulates i) (s : State) :
    commandEffect P i (commandEffect P i s) = commandEffect P i s := by
  cases i with
  | kdAbs k => exact absurd (.inl ⟨k, rfl⟩) h
  | kdFin => exact absurd (.inr (.inl rfl)) h
  | rngNext g => exact absurd (.inr (.inr ⟨g, rfl⟩)) h
  | rngSeed g => cases g <;> rfl
  | pgShuf => exact shuffle_shuffle P s
  | ccEmb prof bit | ccExt prof | pxExt ch prof => simp only [commandEffect]; cases profileOf prof <;> rfl
  | pxEmb ch prof bit =>
    simp only [commandEffect]
    cases profileOf prof with
    | none => rfl
    | some p => exact pxEmbed_pxEmbed ch p bit s
  | cvWr d => exact memWrite_memWrite _ d s
  | _ => rfl

/-- A command's writes leave alone what its check looks at. -/
theorem commandCheck_commandEffect (P : Params) {i : Instr} (h : ¬ Accumulates i) (s : State) :
    commandCheck i (commandEffect P i s) = commandCheck i s := by
  cases i with
  | kdAbs k => exact absurd (.inl ⟨k, rfl⟩) h
  | kdFin => exact absurd (.inr (.inl rfl)) h
  | rngNext g => exact absurd (.inr (.inr ⟨g, rfl⟩)) h
  | pxEmb _ prof _ | pxExt _ prof =>
    simp only [commandCheck, commandEffect]
    cases profileOf prof <;> rfl
  | _ => rfl

/-- Settles O52: after its writes a command passes the same check and writes the same again; an error raised leaves
error-stop, where a second execution does nothing. -/
theorem idempotentCommands : Obligations.IdempotentCommands := by
  intro i s t habs hfin hnext h
  have hacc : ¬ Accumulates i := by rintro (⟨k, rfl⟩ | rfl | ⟨g, rfl⟩) <;> simp at habs hfin hnext
  rcases exec_cases h with ⟨rfl, hrun⟩ | ⟨c, hr, -, -, rfl⟩ | ⟨-, -, rfl⟩
  · rcases hrun with hr | ⟨he, hc⟩
    · rw [← execFor_params, execFor_eq_effect params hr, commandEffect_idempotent params hacc]
    · have hagain := exec_passed (commandEffect_err he) ((commandCheck_commandEffect params hacc s).trans hc)
      rwa [commandEffect_idempotent params hacc] at hagain
  · exact exec_stopped hr (errCode_ne_zero c)
  · exact h

end Sys2Proof.Machine
end

section
/-! What host programs do to one byte of CANVAS: embeds, extracts, pokes and peeks at given positions and addresses
(45_canvas.md R196, R197; 20_memory.md R75), from any state with a valid permutation. -/

namespace Sys2Proof.Machine

/-! ### The codec (44_channel_codec.md R176 to R178) -/

theorem extractBit_lsb_embedBit (p : Profile) (b : Byte) (bit : Bool) : extractBit .lsb (embedBit p b bit) = bit := by
  cases p with
  | lsb => exact extractBit_embedBit .lsb b bit
  | sentinel | fullValue => cases bit <;> simp [extractBit, embedBit]

/-- Under LSB-parity only the bytes 254 and 255 become 255. -/
theorem extractBit_sentinel_embedBit_lsb (b : Byte) :
    extractBit .sentinel (embedBit .lsb b true) = true ↔ b = 254 ∨ b = 255 := by
  revert b; decide

theorem embedBit_lsb_of_getLsbD {b : Byte} {bit : Bool} (h : b.getLsbD 0 = bit) : embedBit .lsb b bit = b := by
  revert b bit; decide

theorem embedBit_lsb_toNat_le (b : Byte) (bit : Bool) :
    (embedBit .lsb b bit).toNat ≤ b.toNat + 1 ∧ b.toNat ≤ (embedBit .lsb b bit).toNat + 1 := by
  revert b bit; decide

/-- Settles O40: Sentinel and Full-value embed a bit as a byte that all three readers read alike for 1, and that has the
bit at bit 0; what LSB-parity does is checked on all bytes. -/
theorem codecLaws : Obligations.CodecLaws := fun p b bit =>
  ⟨extractBit_embedBit p b bit, extractBit_lsb_embedBit p b bit, extractBit_embedBit .fullValue b bit,
    extractBit_embedBit .sentinel b bit, extractBit_sentinel_embedBit_lsb b, embedBit_embedBit p b bit,
    embedBit_lsb_of_getLsbD, embedBit_lsb_toNat_le b bit⟩

/-! ### Pokes and peeks -/

section

variable {P : Params} {s : State} {m : Nat → Byte} {a : Word}

theorem ofNat_toNat_word (a : Word) : BitVec.ofNat 32 a.toNat = a := by simp

theorem endsWith_poke_word {d : Byte} (h : Holding m s) (ha : a.toNat < 4194304) :
    EndsWith P (poke a d) s fun _ t => Holding (Function.update m a.toNat d) t := by
  have hpoke := endsWith_poke_holding (P := P) (d := d) h ha
  rwa [ofNat_toNat_word] at hpoke

theorem endsWith_peek_word (h : Holding m s) (ha : a.toNat < 4194304) :
    EndsWith P (peek a) s fun b t => b = m a.toNat ∧ Holding m t := by
  have hpeek := endsWith_peek (P := P) h ha
  rwa [ofNat_toNat_word] at hpeek

/-- A program that ends with the value `a` does so in some state. -/
theorem EndsWith.exists_value {α : Type} {p : Prog α} {a : α} (h : EndsWith params p s fun b _ => b = a) :
    ∃ t, runProg p s = .next (a, t) := by
  obtain ⟨b, t, hrun, rfl⟩ := h
  exact ⟨t, (runProg_eq p s).trans hrun⟩

end

/-- Settles O48: each write changes the byte at its own address only, so the first one's byte still stands when it is
read. -/
theorem pokeThenPeekReturnsTheByte : Obligations.PokeThenPeekReturnsTheByte := by
  intro a d others s he ha hothers
  refine (EndsWith.andThen ((endsWith_poke_word ⟨he, rfl⟩ ha).mono fun _ t ht => .andThen ?_)).exists_value
  refine EndsWith.mono (endsWith_forEach_overwrite (A := Holding) (fun o => o.1.toNat) (fun o _ => o.2)
    (fun o ho m u hu => endsWith_poke_word hu (hothers o ho).2) ht) fun _ u hu => ?_
  refine (endsWith_peek_word hu ha).mono fun b v ⟨hb, _⟩ => ?_
  have hne : ∀ o ∈ others, a.toNat ≠ o.1.toNat := fun o ho heq => (hothers o ho).1 (BitVec.eq_of_toNat_eq heq).symm
  rw [hb, overwrite_of_forall_ne hne, Function.update_self]

/-! ### Embeds and extracts at a position -/

/-- The address of channel `ch` at position `i`: `4*PERM[i] + ch` (45_canvas.md R191). -/
def positionAddr (s : State) (i : Word) (ch : Channel) : Nat := pixelAddr (permRead s i.toNat).toNat ch

/-- The state that `EMBED ch, p, i, bit` leaves: that of `PX.EMB` with `ARG0` written. -/
def embedAt (ch : Channel) (p : Profile) (i : Word) (bit : Bool) (s : State) : State :=
  pxEmbed ch p bit { afterAccess none s with arg0 := i }

/-- The block takes the position `i`. -/
structure Accepts (s : State) (i : Word) : Prop where
  noError : s.err = 0
  pv : s.pv = true
  lt : i.toNat < s.npix.toNat

/-- The block takes at `t` the positions it takes at `s`, and finds the same pixels there. -/
structure SamePositions (s t : State) : Prop where
  err : t.err = s.err
  pv : t.pv = s.pv
  npix : t.npix = s.npix
  perm : permRead t = permRead s

section

variable {s t : State} {i j : Word} {ch ch' : Channel} {p p' : Profile} {bit bit' : Bool}

theorem SamePositions.embedAt (h : SamePositions s t) : SamePositions s (embedAt ch p i bit t) :=
  ⟨h.err, h.pv, h.npix, h.perm⟩

theorem samePositions_embedAt : SamePositions s (embedAt ch p i bit s) := ⟨rfl, rfl, rfl, rfl⟩

theorem SamePositions.accepts (h : SamePositions s t) (hi : Accepts s i) : Accepts t i :=
  ⟨h.err.trans hi.noError, h.pv.trans hi.pv, h.npix ▸ hi.lt⟩

theorem SamePositions.permValid (h : SamePositions s t) (hperm : PermValid s) : PermValid t := by
  rwa [PermValid, h.npix, h.perm]

theorem SamePositions.positionAddr_eq (h : SamePositions s t) : positionAddr t i ch = positionAddr s i ch := by
  rw [positionAddr, positionAddr, h.perm]

theorem memRead_embedAt : memRead (embedAt ch p i bit s) =
    Function.update (memRead s) (positionAddr s i ch) (embedBit p (memRead s (positionAddr s i ch)) bit) :=
  memRead_pxEmbed ch p bit _

theorem canvas_embedAt : (embedAt ch p i bit s).canvas =
    storeCell (positionAddr s i ch) (embedBit p (memRead s (positionAddr s i ch)) bit) s.canvas := rfl

/-- Different pixels have no byte in common. -/
theorem pixel_eq_of_pixelAddr_eq {x y : Nat} (h : pixelAddr x ch = pixelAddr y ch') : x = y := by
  have hch := (channelCode ch).isLt
  have hch' := (channelCode ch').isLt
  unfold pixelAddr at h
  omega

theorem PermValid.permRead_ne (h : PermValid s) (hi : Accepts s i) (hj : Accepts s j) (hne : i ≠ j) :
    permRead s i.toNat ≠ permRead s j.toNat :=
  fun heq => hne (BitVec.eq_of_toNat_eq (h.permRead_inj hi.lt hj.lt heq))

/-- Different positions have no byte in common, whatever the channels. -/
theorem PermValid.positionAddr_ne (h : PermValid s) (hi : Accepts s i) (hj : Accepts s j) (hne : i ≠ j) :
    positionAddr s i ch ≠ positionAddr s j ch' :=
  fun heq => h.permRead_ne hi hj hne (BitVec.eq_of_toNat_eq (pixel_eq_of_pixelAddr_eq heq))

/-- An embed leaves the bytes of every other position alone. -/
theorem memRead_embedAt_other (h : PermValid s) (hi : Accepts s i) (hj : Accepts s j) (hne : i ≠ j) :
    memRead (embedAt ch p i bit s) (positionAddr s j ch') = memRead s (positionAddr s j ch') := by
  rw [memRead_embedAt, Function.update_of_ne (h.positionAddr_ne hi hj hne).symm]

/-- An embed sees the other position's byte as it was, so the two orders store the same two bytes. -/
theorem canvas_embedAt_comm (h : PermValid s) (hc : s.canvas.wf) (hi : Accepts s i) (hj : Accepts s j) (hne : i ≠ j) :
    (embedAt ch' p' j bit' (embedAt ch p i bit s)).canvas = (embedAt ch p i bit (embedAt ch' p' j bit' s)).canvas := by
  simp only [canvas_embedAt (s := embedAt _ _ _ _ s), samePositions_embedAt.positionAddr_eq,
    memRead_embedAt_other h hi hj hne, memRead_embedAt_other h hj hi hne.symm, canvas_embedAt]
  exact storeCell_comm (h.positionAddr_ne hj hi hne.symm) _ _ hc.1

variable {P : Params}

theorem Accepts.commandCheck_eq_none {c : Instr} (hi : Accepts s i) (hc : TakesPosition c) :
    commandCheck c { afterAccess none s with arg0 := i } = none := by
  obtain ⟨-, hpv, hlt⟩ := hi
  rw [commandCheck_of_takesPosition hc]
  exact checkPosition_none hpv hlt

theorem endsWith_embedAt (hi : Accepts s i) :
    EndsWith P (embedPseudo ch p i bit) s fun _ t => t = embedAt ch p i bit s := by
  have hcheck := hi.commandCheck_eq_none (.inr (.inl ⟨ch, p, bit, rfl⟩))
  refine .andThen (.wr_arg0 (.command (profLegal_profileCode p) hi.noError hcheck ?_))
  rw [commandEffect, profileOf_profileCode, Option.elim_some]
  rfl

theorem endsWith_extractAt (hi : Accepts s i) :
    EndsWith P (extractPseudo ch p i) s fun v _ => v = bitResult (extractBit p (memRead s (positionAddr s i ch))) := by
  have hcheck := hi.commandCheck_eq_none (.inr (.inr ⟨ch, p, rfl⟩))
  refine .andThen (.wr_arg0 (.andThen (.command (profLegal_profileCode p) hi.noError hcheck ?_)))
  rw [commandEffect, profileOf_profileCode, Option.elim_some]
  exact .rd rfl

theorem endsWith_embedAt_twice (hi : Accepts s i) (hj : Accepts s j) :
    EndsWith P (thenProg (embedPseudo ch p i bit) (embedPseudo ch' p' j bit')) s fun _ t =>
      t = embedAt ch' p' j bit' (embedAt ch p i bit s) := by
  refine .andThen ((endsWith_embedAt hi).mono fun _ t ht => ?_)
  subst ht
  exact endsWith_embedAt (samePositions_embedAt.accepts hj)

end

/-- Settles O46: the loop of the other embeds keeps the positions and, as a permutation gives each its own pixel, the byte
that carries the bit. -/
theorem embedThenExtractReturnsTheBit : Obligations.EmbedThenExtractReturnsTheBit := by
  intro ch p i bit others s hinv he hp hi hothers
  obtain ⟨-, hperm⟩ := hinv.perm_valid hp
  have hacc : Accepts s i := ⟨he, hp, hi⟩
  refine (EndsWith.andThen ((endsWith_embedAt hacc).mono fun _ t ht => .andThen ?_)).exists_value
  subst ht
  refine EndsWith.mono (.forEach_invariant
    (J := fun t => SamePositions s t ∧ extractBit p (memRead t (positionAddr s i ch)) = bit) ?_
    ⟨samePositions_embedAt, ?_⟩) ?_
  · rintro ⟨ch', p', j, bit'⟩ hmem t ⟨hsame, hbit⟩
    obtain ⟨hne, hj⟩ := hothers _ hmem
    have hi' : Accepts t i := hsame.accepts hacc
    have hj' : Accepts t j := hsame.accepts ⟨he, hp, hj⟩
    refine (endsWith_embedAt hj').mono fun _ u hu => ?_
    subst hu
    refine ⟨hsame.embedAt, ?_⟩
    rw [← hsame.positionAddr_eq, memRead_embedAt_other (hsame.permValid hperm) hj' hi' hne, hsame.positionAddr_eq,
      hbit]
  · rw [memRead_embedAt, Function.update_self, extractBit_embedBit]
  · rintro _ t ⟨hsame, hbit⟩
    refine (endsWith_extractAt (hsame.accepts hacc)).mono fun v _ hv => ?_
    rw [hv, hsame.positionAddr_eq, hbit]
    rfl

/-- Settles O47: a permutation gives the two positions two pixels, which share no byte; so each embed and the extract see
their byte as it was, and two stores at different addresses commute. -/
theorem embedsAtDifferentPositionsCommute : Obligations.EmbedsAtDifferentPositionsCommute := by
  intro ch ch' p p' i i' bit bit' s hinv hform he hp hi hi' hne
  obtain ⟨-, hperm⟩ := hinv.perm_valid hp
  have hacc : Accepts s i := ⟨he, hp, hi⟩
  have hacc' : Accepts s i' := ⟨he, hp, hi'⟩
  refine ⟨hperm.permRead_ne hacc hacc' hne, hperm.positionAddr_ne hacc hacc' hne, ?_, ?_⟩
  · obtain ⟨_, t, hrun, rfl⟩ := endsWith_embedAt_twice (P := params) (ch := ch) (p := p) (bit := bit) (ch' := ch')
      (p' := p') (bit' := bit') hacc hacc'
    obtain ⟨_, t', hrun', rfl⟩ := endsWith_embedAt_twice (P := params) (ch := ch') (p := p') (bit := bit') (ch' := ch)
      (p' := p) (bit' := bit) hacc' hacc
    exact ⟨_, _, (runProg_eq _ s).trans hrun, (runProg_eq _ s).trans hrun',
      canvas_embedAt_comm hperm hform.canvas_wf hacc hacc' hne⟩
  · obtain ⟨u, hbefore⟩ := (endsWith_extractAt (ch := ch') (p := p') hacc').exists_value
    have hafter : EndsWith params (thenProg (embedPseudo ch p i bit) (extractPseudo ch' p' i')) s fun v _ =>
        v = bitResult (extractBit p' (memRead s (positionAddr s i' ch'))) := by
      refine .andThen ((endsWith_embedAt hacc).mono fun _ t ht => ?_)
      subst ht
      refine (endsWith_extractAt (samePositions_embedAt.accepts hacc')).mono fun v _ hv => ?_
      rw [hv, samePositions_embedAt.positionAddr_eq, memRead_embedAt_other hperm hacc hacc' hne]
    obtain ⟨u', hrun'⟩ := hafter.exists_value
    exact ⟨_, u, u', hbefore, hrun'⟩

end Sys2Proof.Machine
end

section
/-! The host's side of the block: the register accesses (10_state.md R21, R22; 20_memory.md R65), the command register
(40_system.md R103), reset (70_reset_and_hazards.md R280, R281), `CLR` (40_system.md R101), and the parameter set. -/

namespace Sys2Proof.Machine

/-! ### Commands and words always answer -/

theorem issueWord_next (w : Word) (s : State) : ∃ t, issueWord w s = .next t := by
  cases hd : decode w with
  | cmd i => exact issueWord_of_decode hd s ▸ exec_next i s
  | illegal why => exact issueWord_illegal hd s ▸ runCommand_next _ _ _ _

/-- Settles O53: a command ends in its writes, in an error or in nothing, and an illegal word in an error or in nothing. -/
theorem everyCommandTerminates : Obligations.EveryCommandTerminates := issueWord_next

/-! ### One access -/

section

variable {ex : Execution} {s : State} {rest : List Input} {off : BitVec 8} {v : Word}

/-- A step whose input is a command word. -/
theorem takeNextBy_command {w : Word} {i : Instr} (hd : decode w = .cmd i)
    (hi : s.inputs = .write .word 0x04 w :: rest) : takeNextBy ex s = ex i { s with inputs := rest, reply := none } := by
  have hcmd : regAt 0x04 = some .cmd := regAt_regOffset .cmd
  rw [takeNextBy_write (by decide) hi]
  simp only [writeOffsetBy, hcmd, issueWordBy, hd]

theorem writeOffset_next (off : BitVec 8) (v : Word) (s : State) : ∃ t, writeOffset off v s = .next t := by
  rw [writeOffset, writeOffsetBy]
  split
  · exact issueWord_next v s
  all_goals exact ⟨_, rfl⟩

theorem alignedWord_eq_false {size : Size} (h : size ≠ .word ∨ off.toNat % 4 ≠ 0) : alignedWord size off = false := by
  rcases h with h | h <;> simp [alignedWord, h]

theorem takeNextBy_refused {size : Size} (h : size ≠ .word ∨ off.toNat % 4 ≠ 0)
    (hi : s.inputs = .read size off :: rest ∨ s.inputs = .write size off v :: rest) :
    takeNextBy ex s = .refused .notAlignedWord := by
  rcases hi with hi | hi <;> simp [takeNextBy, hi, takeInputBy, alignedWord_eq_false h]

theorem takeNextBy_hwReset (hi : s.inputs = .hwReset :: rest) :
    takeNextBy ex s = .next (hwReset { s with inputs := rest }) := by
  simp only [takeNextBy, hi, takeInputBy, hwReset]

/-- No register looks at the accesses. -/
theorem readReg_hostFields (r : Reg) (s : State) (inputs : List Input) (reply : Option Word) :
    readReg r { s with inputs := inputs, reply := reply } = readReg r s := by cases r <;> rfl

theorem takeNextBy_read_register (r : Reg) (hi : s.inputs = .read .word (regOffset r) :: rest) :
    takeNextBy ex s = .next { s with inputs := rest, reply := some (readReg r s) } := by
  rw [takeNextBy_read (regOffset_aligned r) hi, readOffset_regOffset, readReg_hostFields]

/-- The registers a write changes nothing of. -/
def readOnly : Reg → Bool
  | .cmd => false
  | .arg0 => false
  | .arg1 => false
  | _ => true

theorem writeOffset_readOnly {r : Reg} (h : readOnly r = true) (v : Word) (s : State) :
    writeOffset (regOffset r) v s = .next s := by
  rw [writeOffset, writeOffsetBy, regAt_regOffset]
  cases r with
  | cmd | arg0 | arg1 => cases h
  | _ => rfl

theorem step_write_register (r : Reg) (hi : s.inputs = .write .word (regOffset r) v :: rest) :
    step s = writeOffset (regOffset r) v { s with inputs := rest, reply := none } :=
  takeNextBy_write (regOffset_aligned r) hi

end

/-- Settles O6: the access is aligned, its offset is that of CMD, and the word decodes to the command. -/
theorem stepRunsTheDecodedCommand : Obligations.StepRunsTheDecodedCommand :=
  fun _ _ _ _ hd hi => ⟨takeNextBy_command hd hi, fun _ => takeNextBy_command hd hi⟩

/-- The register map as offsets and values. -/
theorem mem_registerMap {off : BitVec 8} {v : Word} {s : State}
    (h : (off, v) ∈ allRegs.map fun r => (regOffset r, readReg r s)) : ∃ r, off = regOffset r ∧ v = readReg r s := by
  obtain ⟨r, -, hr⟩ := List.mem_map.mp h
  simp only [Prod.mk.injEq] at hr
  exact ⟨r, hr.1.symm, hr.2.symm⟩

theorem mem_readOnlyOffsets {off : BitVec 8} (h : off ∈ (allRegs.filter readOnly).map regOffset) :
    ∃ r, readOnly r = true ∧ off = regOffset r := by
  obtain ⟨r, hr, rfl⟩ := List.mem_map.mp h
  exact ⟨r, (List.mem_filter.mp hr).2, rfl⟩

/-- Settles O7: the offset leads to its register, whatever `ERR`; the two lists of the statement are the register map and
its read-only part. -/
theorem registerAccessRules : Obligations.RegisterAccessRules := by
  intro s rest off v
  refine ⟨fun hi hmem => ?_, fun hi => ?_, fun hi => ?_, fun hi hmem => ?_, fun hi => ?_⟩
  · obtain ⟨r, rfl, rfl⟩ := mem_registerMap hmem
    exact takeNextBy_read_register r hi
  · exact (step_write_register .arg0 hi).trans (writeOffset_arg0 v _)
  · exact (step_write_register .arg1 hi).trans (writeOffset_arg1 v _)
  · obtain ⟨r, hr, rfl⟩ := mem_readOnlyOffsets hmem
    exact (step_write_register r hi).trans (writeOffset_readOnly hr v _)
  · rw [step_write_register .cmd hi, writeOffset, writeOffsetBy, regAt_regOffset, issueWord]

/-- Settles O9: the port looks at the width and the offset first; past that a read answers, and a write answers because
every word does. -/
theorem onlyAlignedWordAccessesHaveMeaning : Obligations.OnlyAlignedWordAccessesHaveMeaning := by
  intro s rest size off v
  refine ⟨takeNextBy_refused, ?_⟩
  rintro rfl ha (hi | hi)
  · exact ⟨_, takeNextBy_read ha hi⟩
  · obtain ⟨t, ht⟩ := writeOffset_next off v { s with inputs := rest, reply := none }
    exact ⟨t, (takeNextBy_write ha hi).trans ht⟩

/-! ### Reset and `CLR` -/

/-- After a pulse of the reset input the registers read as after `CLR`. -/
theorem readReg_hwReset (r : Reg) (s s' : State) : readReg r (hwReset s) = readReg r (softReset s') := by
  cases r <;> rfl

theorem memRead_hwReset (s : State) (a : Nat) : memRead (hwReset s) a = Config.canvas0 (s.epoch + 1) a := rfl

/-- Settles O11: the reset state is what `CLR` makes of it, and no byte is written. -/
theorem resetValues : Obligations.ResetValues :=
  ⟨rfl, fun _ hr => readReg_softReset hr State.reset, rfl, rfl, rfl, rfl, rfl, rfl, fun _ => rfl⟩

/-- Settles O12: the pulse is taken off the inputs, whatever the state. -/
theorem hardwareResetGivesTheResetState : Obligations.HardwareResetGivesTheResetState :=
  fun _ _ hi => takeNextBy_hwReset hi

/-- Settles O13: both give every register and flag its reset value; `CLR` leaves CANVAS and the epoch of its unwritten
bytes, reset starts a new epoch with no byte written. -/
theorem clrAgreesWithResetButForCanvas : Obligations.ClrAgreesWithResetButForCanvas := by
  intro s t u ht hu
  obtain rfl := Host.Outcome.next.inj ((exec_clr s).symm.trans ht)
  obtain rfl : hwReset s = u := Host.Outcome.next.inj hu
  exact ⟨fun r => (readReg_hwReset r s s).symm, ⟨rfl, rfl, rfl, rfl, rfl⟩, memRead_softReset s, memRead_hwReset s⟩

/-- Settles O15: `CLR` is one of the three commands error-stop does not stop, and its writes are these. -/
theorem clrClearsRegistersAndFlags : Obligations.ClrClearsRegistersAndFlags := ⟨by decide, exec_clr⟩

/-! ### The parameter set -/

theorem params_legal : params.Legal := by
  refine ⟨?_, ?_, ?_, ?_, ?_, ?_, ?_⟩ <;> decide

/-- Settles O21: the numbers are those of 00_scope.md R9, the output function is R134's, and the block's commands and step
are those of the set. -/
theorem parametersAreTheDefaultSet : Obligations.ParametersAreTheDefaultSet := by
  refine ⟨rfl, rfl, rfl, fun _ => rfl, params_legal, ?_, by decide, fun i s => by rw [execFor_params],
    fun s => by rw [stepFor_params]⟩
  rintro t0 t1 t2 rfl rfl
  rfl

end Sys2Proof.Machine
end
